-- ==== Sys2Proof/Word.lean ====
section
/-! DEFINITION. The plain data words of the VF614 (R1): bytes, serials, circuit numbers, millisecond counts. -/

namespace Sys2Proof

/-- One character of the link, the port or the parameter store. -/
abbrev Byte := BitVec 8

/-- A unit serial, 24 bits (R6). -/
abbrev Serial := BitVec 24

/-- A sense channel C0..C7. -/
abbrev Circ := Fin 8

/-- A place in the train, 0..7 (R143). -/
abbrev Rank := Fin 8

/-- A moment or a length in milliseconds on the station's own count (R3). -/
abbrev Ms := Nat

end Sys2Proof
end

