-- ==== Sys2Proof/Config.lean ====
section
/-! DEFINITION. The values the spec leaves open. None has a body: nothing can be proved of their value. -/

namespace Sys2Proof.Config

/-- R111: the condition an interrupted store write leaves its item in: 0 the old content, 1 the new content,
2 bad. Indexed by `State.free` (DESIGN CHOICE, log entry 9). -/
opaque writeRemnant : Nat → Fin 3

/-- R111: the bytes an item holds that an interrupted write left bad, by `State.free` and byte position. DESIGN CHOICE,
log entry 9. -/
opaque damagedByte : Nat → Nat → Byte

/-- R196: a rank clash that begins or ends in a STATUS may reach the fault list before that STATUS is compared
(true) or after it (false). Indexed by `State.free`. DESIGN CHOICE, log entry 10. -/
opaque clashFirst : Nat → Bool

/-- R218: what a fixed-size field of a reply shows of a value too large for it, by the field's offset and the value
(DESIGN CHOICE, log entry 23). -/
opaque wideField : Nat → Nat → Nat

end Sys2Proof.Config
end

