-- ==== Sys2Proof/Syntax.lean ====
section
/-! DEFINITION. The commands of the VF614: one constructor of `Instr` per row of spec/opcode_table.json, with what
comes to the station from outside as its operands. -/

namespace Sys2Proof

/-- The five telegram kinds (R117). -/
inductive TKind where
  | command | learn | query | reading | status
  deriving DecidableEq, Repr

/-- The header and serial characters of a received telegram (R117), apart from its kind, which the row names. -/
structure RxHeader where
  rank : BitVec 3
  unranked : Bool
  head : Bool
  serial : Serial
  deriving DecidableEq, Repr

/-- A character as the receiver reads it: eight data bits, and whether its stop bit read recessive (R115, R121). -/
structure RxChar where
  data : Byte
  stop : Bool
  deriving DecidableEq, Repr

/-- The lines the intent sampler reads: INT0..INT7 and CRANK (R48). -/
inductive IntentLine where
  | int (f : Fin 8)
  | crank
  deriving DecidableEq, Repr

/-- A roster position: a ranked slot, or a position in the unplaced list (R147). -/
inductive RosterPlace where
  | slot (r : Rank)
  | unplaced (i : Fin 4)
  deriving DecidableEq, Repr

/-- The commands, in the order of spec/opcode_table.json. Converter results are 12-bit codes: a voltage code stands
for 10 mV a step, a current code for 2 mA a step (R8; DESIGN CHOICE, log entry 5). Payloads are the payload characters
as one number, bit 0 the first bit sent (R216). -/
inductive Instr where
  /-- R25: power-on, RESETn or supply collapse. -/
  | startUpReset
  /-- R12: a scan step falls due. -/
  | scanStep
  /-- R15: a scan pair ends with this voltage code and this current code. -/
  | pairEnd (v i : BitVec 12)
  /-- R14: the supply conversion ends with this code. -/
  | supplyConversionEnd (v : BitVec 12)
  /-- R17: a voltage re-conversion ends with this code. -/
  | voltageReConversionEnd (v : BitVec 12)
  /-- R211: a spot pair ends with these codes. -/
  | spotPairEnd (v i : BitVec 12)
  /-- R32: the compare time of circuit c's locked tracker. -/
  | missedFlash (c : Circ)
  /-- R34: the silence deadline of circuit c's unlocked tracker. -/
  | silenceDeadline (c : Circ)
  /-- R27: the linger end of circuit c's tracker. -/
  | lingerEnd (c : Circ)
  /-- R42: the end of circuit c's steady window. -/
  | windowClose (c : Circ)
  /-- R43: circuit c's ON-phase record has been open for 2000 ms. -/
  | heldOnClose (c : Circ)
  /-- R46: a record of circuit c is taken for judgement. -/
  | takenForJudgement (c : Circ)
  /-- R105: circuit c's learn deadline. -/
  | learnDeadline (c : Circ)
  /-- R110: the store write in progress ends, and the item reads back these bytes. -/
  | storeWriteEnd (readback : List Byte)
  /-- R48: a line's 30th consecutive opposite read. -/
  | intentDebounce (line : IntentLine)
  /-- R49: the re-send timer expires. -/
  | reSendTimer
  /-- R53: the staleness timer expires. -/
  | stalenessTimer
  /-- R119: after `quietNs` of recessive line a dominant bit of `widthNs` is measured (`driving`: this station is
  itself driving it), and the character then reads as given. -/
  | candidateStart (quietNs widthNs : Nat) (driving : Bool) (char : RxChar)
  /-- R122: the receiver has read these characters, and then the line stayed recessive. -/
  | badTelegram (chars : List RxChar)
  /-- R51: a good COMMAND that is not the station's own arrives. -/
  | commandTelegram (h : RxHeader) (p : BitVec 64)
  /-- R99: a good LEARN arrives. -/
  | learnTelegram (h : RxHeader) (p : BitVec 24)
  /-- R124: a good QUERY arrives. -/
  | queryTelegram (h : RxHeader) (p : BitVec 24)
  /-- R210: a good READING arrives. -/
  | readingTelegram (h : RxHeader) (p : BitVec 104)
  /-- R150: a good STATUS arrives. -/
  | statusTelegram (h : RxHeader) (p : BitVec 288)
  /-- R155: the head clash deadline. -/
  | headClashDeadline
  /-- R152: the entry at this place reaches an age of 1500 ms. -/
  | rosterExpiry (place : RosterPlace)
  /-- R195: a half of BLINK expires. -/
  | warnBlinkHalf
  /-- R176: a further multiple of 1000 ms. -/
  | trainSeconds
  /-- R172: the unlisted deadline. -/
  | unlistedDeadline
  /-- R125: the ALONE timer expires. -/
  | aloneTimer
  /-- R129: the line has been recessive for `quietNs` nanoseconds. -/
  | sendAttempt (quietNs : Nat)
  /-- R130: the line read back bit by bit since the attempt began (true = recessive); the last bit differs. -/
  | yieldLine (line : List Bool)
  /-- R130: as `yieldLine`, with the other difference. -/
  | driveFault (line : List Bool)
  /-- R132: the last stop bit has been read back recessive. -/
  | completion
  /-- R133: the own driver has been dominant for `ns` nanoseconds without a break. -/
  | cutOff (ns : Nat)
  /-- R134: the own drive has been recessive for `ms` without a break. -/
  | cutOffRecovery (ms : Nat)
  /-- R135: the line has been dominant for `ns` nanoseconds while the own driver is released. -/
  | lineStuck (ns : Nat)
  /-- R135: the line has been recessive for `ms` without a break. -/
  | lineStuckHoldEnd (ms : Nat)
  /-- R136: the STATUS timer expires. -/
  | statusTimer
  /-- R136: the holdoff runs out with a change waiting. -/
  | holdoff
  /-- R140: a multiple of 100 ms. -/
  | rearBurstStart
  /-- R141: a high stretch on FRONT of `us` microseconds ends now. -/
  | frontHighStretch (us : Nat)
  /-- R141, R143: FRONT has been low for 5 ms after a burst. -/
  | burstEnd
  /-- R144: the rank unit's silence deadline. -/
  | rankSilenceDeadline
  /-- R208: the deadline of the tracked station with this serial. -/
  | learnTrackerDeadline (serial : Serial)
  /-- R210: the outstanding query's deadline. -/
  | queryDeadline
  /-- R198: PSEL is asserted. -/
  | frameStart
  /-- R198: PSEL is released before the code's length was complete. -/
  | badFrame
  /-- R198: PSEL is released after a frame whose code is unknown. -/
  | unknown (code : Byte)
  /-- R203. -/
  | status
  /-- R201. -/
  | event
  /-- R204. -/
  | entry (index : Byte)
  /-- R204. -/
  | ack (index : Byte) (serial : Serial)
  /-- R204. -/
  | ackAll
  /-- R202. -/
  | clearFlags (mask : Byte)
  /-- R207. -/
  | learn (stations circuits : Byte)
  /-- R209. -/
  | spot (rank circuit : Byte)
  /-- R210. -/
  | spotResult
  /-- R205. -/
  | roster (position : Byte)
  /-- R205: the request LOCAL. -/
  | localRead (circuit : Byte)
  /-- R205. -/
  | tallies
  /-- R206. -/
  | restart
  /-- R112: the 28 content bytes of a configuration block. -/
  | storeConfig (block : List Byte)
  /-- R140: the next edge of the burst on REAR. -/
  | rearPulse
  deriving DecidableEq, Repr

end Sys2Proof
end

