-- ==== Sys2Proof/Decode.lean ====
section
/-! DEFINITION. How bits outside the station spell commands: the table's words (none), the characters of a telegram
(R115 to R118, R121, R216) and the bits and bytes of a port frame (R198, R218), with their encoders. -/

namespace Sys2Proof

/-- The command a word spells by the bits of spec/opcode_table.json. The table gives no row any bits, so no word
spells a command (DESIGN CHOICE, log entry 26). -/
def decodeTableWord (_nbits _w : Nat) : Option Instr := none

/-! ## Bytes, least significant first (R1, R214) -/

/-- `v` as `k` bytes, least significant first. -/
def bytesLE : Nat → Nat → List Byte
  | 0, _ => []
  | k + 1, v => BitVec.ofNat 8 v :: bytesLE k (v / 256)

/-- The number that bytes spell, least significant first. -/
def natLE : List Byte → Nat
  | [] => 0
  | b :: bs => b.toNat + 256 * natLE bs

/-- Eight bits as a byte, bit 0 first. -/
def byteOfBits (b0 b1 b2 b3 b4 b5 b6 b7 : Bool) : Byte :=
  BitVec.ofBool b7 ++ BitVec.ofBool b6 ++ BitVec.ofBool b5 ++ BitVec.ofBool b4 ++
    BitVec.ofBool b3 ++ BitVec.ofBool b2 ++ BitVec.ofBool b1 ++ BitVec.ofBool b0

/-! ## Telegrams -/

/-- The kind codes (R117, R118). -/
def TKind.code : TKind → BitVec 3
  | .command => 0 | .learn => 1 | .query => 2 | .reading => 3 | .status => 4

/-- The payload length of each kind (R118). -/
def TKind.payloadLength : TKind → Nat
  | .command => 8 | .learn => 3 | .query => 3 | .reading => 13 | .status => 36

/-- The kind of a header value; 5, 6 and 7 are not kinds (R117). -/
def TKind.ofCode (v : BitVec 3) : Option TKind :=
  if v = 0 then some .command
  else if v = 1 then some .learn
  else if v = 2 then some .query
  else if v = 3 then some .reading
  else if v = 4 then some .status
  else none

/-- Three bits in the opposite order (R117: most significant bit in the lowest bit of the field). -/
def reverse3 (v : BitVec 3) : BitVec 3 :=
  BitVec.ofBool (v.getLsbD 0) ++ BitVec.ofBool (v.getLsbD 1) ++ BitVec.ofBool (v.getLsbD 2)

/-- The header character (R117, R216). -/
def headerByte (k : TKind) (rank : BitVec 3) (unranked head : Bool) : Byte :=
  BitVec.ofBool head ++ BitVec.ofBool unranked ++ reverse3 rank ++ reverse3 k.code

/-- The fields of a header character (R117). -/
def headerKind (b : Byte) : Option TKind := TKind.ofCode (reverse3 (b.extractLsb' 0 3))

def headerRank (b : Byte) : BitVec 3 := reverse3 (b.extractLsb' 3 3)

def headerUnranked (b : Byte) : Bool := b.getLsbD 6

def headerHead (b : Byte) : Bool := b.getLsbD 7

/-- One data bit fed into the check register (R216). -/
def crcBit (reg : BitVec 16) (b : Bool) : BitVec 16 :=
  if b != reg.getLsbD 15 then (reg <<< 1) ^^^ 0x1021#16 else reg <<< 1

/-- A character fed in, bit 0 first (R216). -/
def crcByte (reg : BitVec 16) (b : Byte) : BitVec 16 :=
  [0, 1, 2, 3, 4, 5, 6, 7].foldl (fun r i => crcBit r (b.getLsbD i)) reg

/-- The 16-bit check over header, serial, length and payload (R118, R216). -/
def crc (bytes : List Byte) : BitVec 16 := bytes.foldl crcByte 0xFFFF#16

/-- The characters the check covers: header, serial, length, payload (R117). -/
def telegramBody (k : TKind) (h : RxHeader) (payload : List Byte) : List Byte :=
  headerByte k h.rank h.unranked h.head ::
    (bytesLE 3 h.serial.toNat ++ (BitVec.ofNat 8 payload.length :: payload))

/-- A whole telegram: rate mark, sync, body, check low byte first (R117, R118). -/
def telegramChars (k : TKind) (h : RxHeader) (payload : List Byte) : List Byte :=
  0x55#8 :: 0xD2#8 ::
    (telegramBody k h payload ++ bytesLE 2 (crc (telegramBody k h payload)).toNat)

/-- A character on the line: start bit 0, data bit 0 first, stop bit 1; true is recessive (R115). -/
def charBits (b : Byte) : List Bool :=
  [false, b.getLsbD 0, b.getLsbD 1, b.getLsbD 2, b.getLsbD 3, b.getLsbD 4, b.getLsbD 5, b.getLsbD 6,
    b.getLsbD 7, true]

/-- Characters sent back to back (R115). -/
def lineBits (chars : List Byte) : List Bool := chars.flatMap charBits

/-- The tests of R121. -/
inductive RxFailure where
  | framing | sync | kind | length | completeness | check
  deriving DecidableEq, Repr

/-- What the receiver makes of a run of characters: bad, with the failing test and the kind whose tally it enters
(none for UNKINDED, R122), or good. -/
inductive RxResult where
  | bad (why : RxFailure) (kind : Option TKind)
  | good (kind : TKind) (h : RxHeader) (payload : List Byte)
  deriving DecidableEq, Repr

/-- Reads `n` characters one after another: a dominant stop bit is a framing error, a missing character a
truncation (R121). Answers the bytes read and what follows them. -/
def readChars : Nat → List RxChar → Except RxFailure (List Byte × List RxChar)
  | 0, cs => .ok ([], cs)
  | _ + 1, [] => .error .completeness
  | n + 1, c :: cs =>
    if c.stop then
      match readChars n cs with
      | .ok (bs, rest) => .ok (c.data :: bs, rest)
      | .error e => .error e
    else .error .framing

/-- Payload and check characters of a telegram whose length field was right (R121). -/
def rxPayload (k : TKind) (h : RxHeader) (hdr : List Byte) (cs : List RxChar) : RxResult :=
  match readChars k.payloadLength cs with
  | .error e => .bad e (some k)
  | .ok (payload, cs) =>
    match readChars 2 cs with
    | .error e => .bad e (some k)
    | .ok (check, _) =>
      if check = bytesLE 2 (crc (hdr ++ payload)).toNat then .good k h payload else .bad .check (some k)

/-- Serial and length, after a header of a valid kind (R121). -/
def rxSerial (k : TKind) (hb : Byte) (cs : List RxChar) : RxResult :=
  match readChars 4 cs with
  | .error e => .bad e (some k)
  | .ok (bs, cs) =>
    if (bs.getD 3 0).toNat = k.payloadLength then
      rxPayload k ⟨headerRank hb, headerUnranked hb, headerHead hb, BitVec.ofNat 24 (natLE (bs.take 3))⟩
        (hb :: bs) cs
    else .bad .length (some k)

/-- R121: the tests, applied to the characters one after another in the order they are read; the first that fails
makes the telegram bad (DEDUCED, log entry 14). -/
def rxTest (cs : List RxChar) : RxResult :=
  match readChars 1 cs with
  | .error e => .bad e none
  | .ok (b0, cs) =>
    if b0 = [0x55#8] then
      match readChars 1 cs with
      | .error e => .bad e none
      | .ok (b1, cs) =>
        if b1 = [0xD2#8] then
          match readChars 1 cs with
          | .error e => .bad e none
          | .ok (hb, cs) =>
            match headerKind (hb.getD 0 0) with
            | none => .bad .kind none
            | some k => rxSerial k (hb.getD 0 0) cs
        else .bad .sync none
    else .bad .sync none

/-- The row of the table that a run of received characters is (R121, R124). -/
def decodeTelegram (cs : List RxChar) : Instr :=
  match rxTest cs with
  | .bad _ _ => .badTelegram cs
  | .good .command h p => .commandTelegram h (BitVec.ofNat 64 (natLE p))
  | .good .learn h p => .learnTelegram h (BitVec.ofNat 24 (natLE p))
  | .good .query h p => .queryTelegram h (BitVec.ofNat 24 (natLE p))
  | .good .reading h p => .readingTelegram h (BitVec.ofNat 104 (natLE p))
  | .good .status h p => .statusTelegram h (BitVec.ofNat 288 (natLE p))

/-- Characters whose stop bits all read recessive. -/
def soundChars (bs : List Byte) : List RxChar := bs.map fun b => ⟨b, true⟩

/-- The characters on the line of a good telegram row. -/
def encodeTelegram : Instr → Option (List RxChar)
  | .commandTelegram h p => some (soundChars (telegramChars .command h (bytesLE 8 p.toNat)))
  | .learnTelegram h p => some (soundChars (telegramChars .learn h (bytesLE 3 p.toNat)))
  | .queryTelegram h p => some (soundChars (telegramChars .query h (bytesLE 3 p.toNat)))
  | .readingTelegram h p => some (soundChars (telegramChars .reading h (bytesLE 13 p.toNat)))
  | .statusTelegram h p => some (soundChars (telegramChars .status h (bytesLE 36 p.toNat)))
  | _ => none

/-! ## Port frames -/

/-- The fixed length of each request with its code; none for an unknown code (R218). -/
def requestLength (code : Byte) : Option Nat :=
  if code = 0x01 then some 1
  else if code = 0x02 then some 1
  else if code = 0x03 then some 2
  else if code = 0x04 then some 5
  else if code = 0x05 then some 1
  else if code = 0x06 then some 2
  else if code = 0x07 then some 3
  else if code = 0x08 then some 3
  else if code = 0x09 then some 1
  else if code = 0x0A then some 2
  else if code = 0x0B then some 2
  else if code = 0x0C then some 1
  else if code = 0x0D then some 1
  else if code = 0x0E then some 29
  else none

/-- A complete request: its code and its fields (R218). -/
def decodeRequest (code : Byte) (f : List Byte) : Instr :=
  if code = 0x01 then .status
  else if code = 0x02 then .event
  else if code = 0x03 then .entry (f.getD 0 0)
  else if code = 0x04 then .ack (f.getD 0 0) (BitVec.ofNat 24 (natLE ((f.drop 1).take 3)))
  else if code = 0x05 then .ackAll
  else if code = 0x06 then .clearFlags (f.getD 0 0)
  else if code = 0x07 then .learn (f.getD 0 0) (f.getD 1 0)
  else if code = 0x08 then .spot (f.getD 0 0) (f.getD 1 0)
  else if code = 0x09 then .spotResult
  else if code = 0x0A then .roster (f.getD 0 0)
  else if code = 0x0B then .localRead (f.getD 0 0)
  else if code = 0x0C then .tallies
  else if code = 0x0D then .restart
  else if code = 0x0E then .storeConfig (f.take 28)
  else .unknown code

/-- R198: the row that the bytes clocked in between the assertion and the release of PSEL are. Bytes beyond the
code's length are ignored; a frame of no byte has no complete length (DEDUCED, log entry 18). -/
def decodeFrame : List Byte → Instr
  | [] => .badFrame
  | code :: fields =>
    match requestLength code with
    | none => .unknown code
    | some n => if fields.length + 1 < n then .badFrame else decodeRequest code fields

/-- R198: the bytes that the bits sampled on PDI spell, bit 0 of each byte first. Bits left over at the release of PSEL
make no byte (DEDUCED, log entry 18). -/
def pdiBytes : List Bool → List Byte
  | b0 :: b1 :: b2 :: b3 :: b4 :: b5 :: b6 :: b7 :: bits => byteOfBits b0 b1 b2 b3 b4 b5 b6 b7 :: pdiBytes bits
  | _ => []

/-- R198: the row that the bits sampled on PDI between the assertion and the release of PSEL are. -/
def decodePdi (bits : List Bool) : Instr := decodeFrame (pdiBytes bits)

/-- The bytes of a request frame (R218). -/
def encodeFrame : Instr → Option (List Byte)
  | .status => some [0x01#8]
  | .event => some [0x02#8]
  | .entry i => some [0x03#8, i]
  | .ack i s => some (0x04#8 :: i :: bytesLE 3 s.toNat)
  | .ackAll => some [0x05#8]
  | .clearFlags m => some [0x06#8, m]
  | .learn a b => some [0x07#8, a, b]
  | .spot a b => some [0x08#8, a, b]
  | .spotResult => some [0x09#8]
  | .roster p => some [0x0A#8, p]
  | .localRead c => some [0x0B#8, c]
  | .tallies => some [0x0C#8]
  | .restart => some [0x0D#8]
  | .storeConfig block => some (0x0E#8 :: block)
  | _ => none

end Sys2Proof
end

