-- ==== Sys2Proof/Machine/State.lean ====
section
/-! DEFINITION. The state of one VF614 station as plain data, the reasons a step can stop, and the state after reset. -/

namespace Sys2Proof.Machine

/-! ## Names the chapters use -/

/-- R3: the ROLE strap. -/
inductive Role where
  | unit | head
  deriving DecidableEq, Repr

/-- R3: the four table rates. -/
inductive Rate where
  | r19200 | r38400 | r57600 | r115200
  deriving DecidableEq, Repr

/-- The eight lamp functions (R215). -/
inductive LampFn where
  | leftTurn | rightTurn | stop | tail | marker | reverse | fog | aux
  deriving DecidableEq, Repr

/-- R5, R215. -/
inductive LoadKind where
  | notFitted | incandescent | led | feed
  deriving DecidableEq, Repr

/-- R48, R215: the state of a function. -/
inductive FnState where
  | off | on | flashing
  deriving DecidableEq, Repr

/-- R63, R79, R215: the fault kinds. -/
inductive FaultKind where
  | lampOut | lampPartial | overload | noSupply | flicker | stray | cadence
  | leakage | unitSilent | rankClash | headClash
  deriving DecidableEq, Repr

/-- R75: where a supply loss is placed. -/
inductive Attribution where
  | coupling | shadowed | unattributed | tractor
  deriving DecidableEq, Repr

/-- R170: the sign of a LEAKAGE. -/
inductive Sign where
  | sink | source
  deriving DecidableEq, Repr

/-- R79. -/
inductive Severity where
  | minor | major | critical
  deriving DecidableEq, Repr

/-- R97. -/
inductive LearnState where
  | unlearned | learning | learned
  deriving DecidableEq, Repr

/-- R56: a set of coast causes, the active cause set or the coast enable mask. -/
structure Causes where
  lowSupply : Bool
  cranking : Bool
  commandLost : Bool
  headClash : Bool
  unranked : Bool
  deriving DecidableEq, Repr

/-- R202: the seven sticky flags. -/
structure Flags where
  eventOverflow : Bool
  listOverflow : Bool
  txCutoff : Bool
  lineStuck : Bool
  storeFault : Bool
  configFault : Bool
  rosterFull : Bool
  deriving DecidableEq, Repr

/-! ## Pins, store, configuration -/

/-- The input pins (00_scope.md): straps, intent lines, the codes the analog inputs would convert to, FRONT. -/
structure Pins where
  role : Bool
  rate1 : Bool
  rate0 : Bool
  intents : Vector Bool 8
  crank : Bool
  senseV : Vector (BitVec 12) 8
  senseI : Vector (BitVec 12) 8
  vsup : BitVec 12
  front : Bool
  deriving DecidableEq, Repr

/-- R107, R219: the nonvolatile items, each as its bytes with the check byte last. -/
structure Store where
  config : List Byte
  refs : Vector (List Byte) 8
  deriving DecidableEq, Repr

/-- R109: a waiting reference write. -/
structure RefWrite where
  circuit : Circ
  iref : Nat
  deriving DecidableEq, Repr

/-- R109: the item a write is of. -/
inductive StoreItem where
  | config
  | reference (c : Circ)
  deriving DecidableEq, Repr

/-- R109: the write in progress, its bytes with their check byte, and when it ends. -/
structure StoreWrite where
  item : StoreItem
  bytes : List Byte
  finish : Ms
  deriving DecidableEq, Repr

/-- R109: the write engine. -/
structure WriteEngine where
  queue : List RefWrite
  configSlot : Option (List Byte)
  current : Option StoreWrite
  deriving DecidableEq, Repr

/-- R3 to R6, R56: the station's part of the effective configuration. -/
structure StationCfg where
  role : Role
  strapRate : Rate
  serial : Serial
  coastMask : Causes
  deriving DecidableEq, Repr

/-- R5: the effective configuration of one circuit; the rating is in 10 mA units. -/
structure CircuitCfg where
  fn : LampFn
  kind : LoadKind
  n : Nat
  rating : Nat
  deriving DecidableEq, Repr

/-! ## Converter and scan -/

/-- R8, R12: what the converter is granted for. A position-0 step is its pair and then the supply conversion. -/
inductive Job where
  | confirm (c : Circ)
  | spotPair (c : Circ)
  | scanPair (c : Circ)
  | supply
  deriving DecidableEq, Repr

/-- R9: a grant, with the clock (eighths of a ms) at which its present operation started. -/
structure Grant where
  job : Job
  start : Nat
  deriving DecidableEq, Repr

/-- R9 to R13: arbiter and scan sequencer. -/
structure Converter where
  grant : Option Grant
  confirmQueue : List Circ
  spotWaiting : Bool
  spotSinceScan : Bool
  scanWaiting : Option Circ
  scanPos : Circ
  scanDue : Nat
  deriving DecidableEq, Repr

/-- R211: a spot reading in progress. -/
structure SpotRun where
  tag : BitVec 4
  circuit : Circ
  pairs : Nat
  sumV : Nat
  sumI : Nat
  deriving DecidableEq, Repr

/-- R211: the spot-reading engine and its waiting READING. -/
structure SpotEngine where
  reading : Option SpotRun
  waiting : Option (BitVec 104)
  deriving DecidableEq, Repr

/-- R57: the LOW SUPPLY cause and the first stamp of the present run of readings. -/
structure LowSupply where
  active : Bool
  runStart : Option Ms
  deriving DecidableEq, Repr

/-! ## One circuit -/

/-- R16: a scan sample awaiting confirmation. -/
structure Sample where
  vm : Nat
  im : Nat
  stamp : Ms
  deriving DecidableEq, Repr

/-- R35: a cadence note that is not NONE. -/
structure CadenceNote where
  period : Bool
  duty : Bool
  mismatch : Bool
  pbar : Nat
  onTime : Nat
  dutyPercent : Nat
  deriving DecidableEq, Repr

/-- R26. -/
inductive Activity where
  | dormant | active | lingering
  deriving DecidableEq, Repr

/-- R26: the cadence tracker. -/
structure Tracker where
  activity : Activity
  locked : Bool
  prevOn : Option Ms
  phaseStart : Option Ms
  window : List Nat
  pbar : Option Nat
  lastT : Option Nat
  disagree : Nat
  miss : Nat
  compareAt : Option Ms
  silenceAt : Option Ms
  lingerAt : Option Ms
  latestNote : Option CadenceNote
  deriving DecidableEq, Repr

/-- R40. -/
inductive RecordKind where
  | window | onPhase | missedFlash
  deriving DecidableEq, Repr

/-- R40: a record; `finish` is its end, 0 while it is open. -/
structure Rec where
  kind : RecordKind
  start : Ms
  finish : Ms
  initial : Bool
  edges : Nat
  n : Nat
  sumI : Nat
  sumV : Nat
  note : Option CadenceNote
  heldOn : Bool
  deriving DecidableEq, Repr

/-- R63: the fields of a verdict made with the lamp stages. -/
structure LampStages where
  inorm : Nat
  r : Nat
  nominal : Bool
  m : Nat
  n : Nat
  deriving DecidableEq, Repr

/-- R63, R76: the findings of a CADENCE verdict. -/
structure Findings where
  period : Bool
  duty : Bool
  mismatch : Bool
  heldOn : Bool
  deriving DecidableEq, Repr

/-- R63: a verdict; kind none is clean. -/
structure Verdict where
  kind : Option FaultKind
  lamp : Option LampStages
  findings : Findings
  attribution : Option Attribution
  front : Option Nat
  deriving DecidableEq, Repr

/-- R47: the last record; it was judged exactly when it has a verdict. -/
structure LastRecord where
  kind : RecordKind
  im : Nat
  verdict : Option Verdict
  deriving DecidableEq, Repr

/-- R83: a confirmation filter. -/
structure Filter where
  candidate : Option FaultKind
  confirm : Nat
  confirmed : Option FaultKind
  clear : Nat
  m : Option Nat
  n : Nat
  attribution : Option Attribution
  front : Option Nat
  sign : Option Sign
  deriving DecidableEq, Repr

/-- R97. -/
inductive LearnOutcome where
  | none | done | failedOutOfRange | failedNotLit | recordBad | recordDiscarded
  deriving DecidableEq, Repr

/-- R97. -/
inductive SaveState where
  | none | waiting | writing | saved | failed
  deriving DecidableEq, Repr

/-- R97: the reference unit of one circuit. -/
structure RefUnit where
  learn : LearnState
  iref : Option Nat
  k : Nat
  sum : Nat
  deadline : Option Ms
  epoch : Option Byte
  outcome : LearnOutcome
  save : SaveState
  deriving DecidableEq, Repr

/-- Everything the station holds per circuit (R16, R26, R40, R45, R47, R83, R97). -/
structure Circuit where
  cfg : CircuitCfg
  energized : Bool
  lastOn : Option Ms
  pendingSample : Option Sample
  glitch : Nat
  tracker : Tracker
  opened : Option Rec
  queue : List Rec
  last : Option LastRecord
  filter : Filter
  ref : RefUnit
  deriving DecidableEq, Repr

/-! ## Command tracking -/

/-- R52: an entry of the history ring. -/
structure RingEntry where
  epoch : Byte
  states : Vector FnState 8
  period : Nat
  crank : Bool
  date : Ms
  deriving DecidableEq, Repr

/-- R50: a unit's command tracker, apart from the ring. `staleAt` none is the expired staleness timer (R53). -/
structure CommandTracker where
  lastEpoch : Option Byte
  lastSender : Option Serial
  staleAt : Option Ms
  staleTally : Nat
  headSupply : Nat
  deriving DecidableEq, Repr

/-- R48: the intent sampler. -/
structure IntentSampler where
  debounced : Vector Bool 8
  crank : Bool
  counts : Vector Nat 8
  crankCount : Nat
  deriving DecidableEq, Repr

/-- R37, R49: the head's epoch source and reported period. -/
structure EpochSource where
  epoch : Byte
  resendAt : Ms
  reported : Nat
  lastSource : Option Circ
  deriving DecidableEq, Repr

/-! ## Link -/

/-- R119, R120: the receiver; in VERIFY, whether the first telegram has been verified. -/
inductive Receiver where
  | hunt
  | verify (rate : Rate) (passed : Bool)
  | synced (rate : Rate)
  deriving DecidableEq, Repr

/-- R125: link presence with its send rate. -/
inductive Presence where
  | listening
  | alone (send : Rate)
  | joined (send : Rate)
  deriving DecidableEq, Repr

/-- R126, R128, R129: an attempt: its kind, the rate it began with and keeps, the characters it drives, and whether
its slot's content was replaced since. -/
structure Attempt where
  kind : TKind
  rate : Rate
  chars : List Byte
  replaced : Bool
  deriving DecidableEq, Repr

/-- R129: the transmitter. -/
inductive TxState where
  | idle | waitGap
  | sending (a : Attempt)
  | yielded | cutOff | latchedOff
  deriving DecidableEq, Repr

/-- R127: the pending set, one payload per kind. -/
structure Slots where
  command : Option (BitVec 64)
  learn : Option (BitVec 24)
  query : Option (BitVec 24)
  reading : Option (BitVec 104)
  status : Option (BitVec 288)
  deriving DecidableEq, Repr

/-- R122: the link error tallies. -/
structure LinkErrors where
  command : Nat
  learn : Nat
  query : Nat
  reading : Nat
  status : Nat
  unkinded : Nat
  deriving DecidableEq, Repr

/-- The link controller (R115 to R135). The three stretches are in ns, as the rows measure them (log entry 6): the
recessive line (`gapNs`, R116), the own driver dominant (`driverNs`, R133), the line dominant while the own driver is
released (`lineNs`, R135). -/
structure Link where
  receiver : Receiver
  badRun : Nat
  errors : LinkErrors
  driveFaults : Nat
  presence : Presence
  aloneAt : Option Ms
  tx : TxState
  slots : Slots
  cutRecord : List Ms
  stuckHold : Bool
  gapNs : Nat
  driverNs : Nat
  lineNs : Nat
  deriving DecidableEq, Repr

/-- R136, R155: the STATUS timer, the holdoff and the change waiting mark; the moment of the last STATUS that the
timer's expiry queued, which includes any change of that same moment; and the moment of the last head clash deadline,
whose change is folded with that of a clashing COMMAND of that same moment (DEDUCED, log entry 19). -/
structure Telling where
  statusAt : Ms
  holdoffAt : Ms
  waiting : Bool
  expiredAt : Option Ms
  clashEnd : Option Ms
  deriving DecidableEq, Repr

/-! ## Rank and roster -/

/-- R142. -/
inductive UnrankedCause where
  | frontSilent | overflow
  deriving DecidableEq, Repr

/-- R142: rank state with its rank or cause. -/
inductive RankState where
  | acquiring
  | ranked (r : Rank)
  | unranked (cause : UnrankedCause)
  deriving DecidableEq, Repr

/-- R141, R142: the open burst on FRONT, and the clock at which its last high stretch ended. -/
structure FrontBurst where
  count : Nat
  malformed : Bool
  lowFrom : Nat
  deriving DecidableEq, Repr

/-- R142: the rank unit. -/
structure RankUnit where
  state : RankState
  runValue : Option Nat
  runLength : Nat
  silenceAt : Option Ms
  openBurst : Option FrontBurst
  deriving DecidableEq, Repr

/-- R140: a burst on REAR: its start, its pulses, and how many of its 2k edges have been driven. -/
structure RearBurst where
  start : Ms
  pulses : Nat
  edges : Nat
  deriving DecidableEq, Repr

/-- R140: the REAR pin; `next` is the next moment a burst may begin. -/
structure Rear where
  level : Bool
  burst : Option RearBurst
  next : Ms
  deriving DecidableEq, Repr

/-- R137, R148, R216: what a STATUS says of one circuit; `mean` is in mA. -/
structure CircuitReport where
  fn : LampFn
  kind : LoadKind
  energized : Bool
  judged : Bool
  confirmed : Option FaultKind
  m : Nat
  attribution : Option Attribution
  front : Option Nat
  mean : Nat
  learn : LearnState
  deriving DecidableEq, Repr

/-- R137, R148: the content of a STATUS. -/
structure Report where
  causes : Causes
  echoed : Option Byte
  circuits : Vector CircuitReport 8
  deriving DecidableEq, Repr

/-- R148: a roster entry; its place is where it stands, and its age class is STALE when `aged` (log entry 34). -/
structure RosterEntry where
  serial : Serial
  claimed : Option Rank
  head : Bool
  clash : Bool
  heard : Ms
  aged : Bool
  report : Report
  deriving DecidableEq, Repr

/-- R147. -/
structure Roster where
  slots : Vector (Option RosterEntry) 8
  unplaced : List RosterEntry
  deriving DecidableEq, Repr

/-! ## The head's merge -/

/-- R166, R169, R170: the figures of a balance record that is not thin. -/
structure BalanceFigures where
  ihead : Nat
  sum : Nat
  diff : Int
  threshold : Nat
  deriving DecidableEq, Repr

/-- R168. -/
inductive ThinReason where
  | feed | coast | unplaced | unlisted | stale | unjudged
  deriving DecidableEq, Repr

/-- R166. -/
inductive BalanceResult where
  | leakage (sign : Sign) (f : BalanceFigures)
  | clean (f : BalanceFigures)
  | thin (why : ThinReason)
  deriving DecidableEq, Repr

/-- R166: a balance record. -/
structure BalanceRecord where
  result : BalanceResult
  formedAt : Ms
  deriving DecidableEq, Repr

/-- R89, R166: the balance checker and the balance filters. -/
structure Balance where
  results : Vector (Option BalanceRecord) 8
  unlistedAt : Option Ms
  filters : Vector Filter 8
  deriving DecidableEq, Repr

/-- R177: the key of an entry. Circuit-keyed kinds hold circuit and function, NO SUPPLY and LEAKAGE the function. -/
structure Key where
  serial : Serial
  kind : FaultKind
  circuit : Option Circ
  fn : Option LampFn
  deriving DecidableEq, Repr

/-- R178: the details an entry's kind has; absent for the others. -/
structure Details where
  m : Nat
  attribution : Option Attribution
  front : Option Nat
  mask : Byte
  sign : Option Sign
  deriving DecidableEq, Repr

/-- R178. -/
inductive EntryState where
  | active | cleared | orphaned
  deriving DecidableEq, Repr

/-- R178: an entry of the fault list. -/
structure Entry where
  key : Key
  severity : Severity
  state : EntryState
  acked : Bool
  occurrences : Nat
  first : BitVec 32
  rankConf : Option Rank
  rankCur : Option Rank
  details : Details
  extent : Nat
  deriving DecidableEq, Repr

/-- R177, R183: the fault list and its overflow tally. -/
structure FaultList where
  entries : List Entry
  overflow : Nat
  deriving DecidableEq, Repr

/-- R195. -/
inductive WarnState where
  | off | steady | blink
  deriving DecidableEq, Repr

/-- R195: the warning driver. -/
structure Warn where
  state : WarnState
  pin : Bool
  toggleAt : Option Ms
  deriving DecidableEq, Repr

/-- R208. -/
inductive LearnDone where
  | done | notStarted | lost
  deriving DecidableEq, Repr

/-- R200: what an event says. -/
inductive EventBody where
  | faultConfirmed (index : Nat) (serial : Serial)
  | faultCleared (index : Nat) (serial : Serial)
  | faultOrphaned (index : Nat) (serial : Serial)
  | stationJoined (serial : Serial)
  | stationLost (serial : Serial)
  | rankChanged (serial : Serial)
  | learnDone (serial : Serial) (status : LearnDone)
  | spotDone (serial : Serial) (tag : BitVec 4) (timeout : Bool)
  | coastBegin
  | coastEnd
  deriving DecidableEq, Repr

/-- R200: an event with its train-seconds. -/
structure Event where
  body : EventBody
  seconds : BitVec 32
  deriving DecidableEq, Repr

/-! ## Queries, learning requests, port -/

/-- R209: an outstanding query. -/
structure Query where
  tag : BitVec 4
  rank : Rank
  serial : Serial
  circuit : Circ
  deadline : Ms
  deriving DecidableEq, Repr

/-- R211: the content of a reading. -/
structure ReadingData where
  vm : Nat
  im : Nat
  inorm : Nat
  r : Nat
  m : Nat
  n : Nat
  learn : LearnState
  deriving DecidableEq, Repr

/-- R210: the spot result. -/
inductive SpotResult where
  | none
  | pending (q : Query)
  | done (q : Query) (d : ReadingData)
  | timeout (q : Query)
  deriving DecidableEq, Repr

/-- R209, R210: the query engine; it is WAITING exactly when a query is outstanding. -/
structure QueryEngine where
  outstanding : Option Query
  nextTag : BitVec 4
  waiting : Option (BitVec 24)
  result : SpotResult
  late : Nat
  deriving DecidableEq, Repr

/-- R207, R208: a tracked station. -/
structure Tracked where
  serial : Serial
  started : Bool
  deadline : Ms
  deriving DecidableEq, Repr

/-- R207, R208: the head's learn epoch and learn tracker; it is idle exactly when no station is tracked. -/
structure Learner where
  epoch : Byte
  mask : Byte
  tracked : List Tracked
  deriving DecidableEq, Repr

/-- R198: the reply slot. -/
inductive ReplySlot where
  | none
  | inProgress
  | finished (bytes : List Byte)
  deriving DecidableEq, Repr

/-- R198: what the reply slot held at the start of the frame in progress. -/
inductive FrameStart where
  | reply | notReady | noRequest
  deriving DecidableEq, Repr

/-- R198: the dashboard port: reply slot, frame in progress, the last out frame. -/
structure Port where
  slot : ReplySlot
  frame : Option FrameStart
  out : List Byte
  deriving DecidableEq, Repr

/-! ## The station -/

/-- One VF614 station. `pending` is the queue of waiting commands, from one sender (DESIGN CHOICE, log entry 30), and
`free` the index of the next free value (DESIGN CHOICE, log entry 31): both are the model's own. `ticks` is the clock
in eighths of a millisecond (R3, R8). -/
structure State where
  pending : List Instr
  free : Nat
  pins : Pins
  store : Store
  writes : WriteEngine
  cfg : StationCfg
  ticks : Nat
  conv : Converter
  spot : SpotEngine
  vs : Option Nat
  lowSupply : LowSupply
  circuits : Vector Circuit 8
  actedEpoch : Option Byte
  ring : List RingEntry
  cmd : CommandTracker
  intent : IntentSampler
  source : EpochSource
  headClashAt : Option Ms
  link : Link
  tell : Telling
  rank : RankUnit
  rear : Rear
  roster : Roster
  balance : Balance
  faults : FaultList
  warn : Warn
  events : List Event
  trainSeconds : BitVec 32
  secondAt : Ms
  learner : Learner
  query : QueryEngine
  port : Port
  flags : Flags
  deriving DecidableEq, Repr

/-! ## The reasons a step can stop -/

/-- No step of the part stops it: every row of the table has an effect in every state, so no meaning raises a fault
and the type has no constructor. -/
inductive Fault where
  deriving DecidableEq, Repr

/-- Why a command would be refused. -/
inductive Refusal where
  /-- Raised by `exec` alone, for a row that has no meaning yet; safe, since the model then says nothing. No row is
  left in that condition. -/
  | notModelled (mnemonic : String)
  deriving DecidableEq, Repr

/-! ## The start-up values -/

/-- R26: a dormant tracker. -/
def Tracker.dormant : Tracker where
  activity := .dormant
  locked := false
  prevOn := none
  phaseStart := none
  window := []
  pbar := none
  lastT := none
  disagree := 0
  miss := 0
  compareAt := none
  silenceAt := none
  lingerAt := none
  latestNote := none

/-- R83: a filter's start-up values, for an effective lamp count n. -/
def Filter.start (n : Nat) : Filter where
  candidate := none
  confirm := 0
  confirmed := none
  clear := 0
  m := none
  n := n
  attribution := none
  front := none
  sign := none

/-- R97, R108: a circuit with no reference. -/
def RefUnit.unlearned : RefUnit where
  learn := .unlearned
  iref := none
  k := 0
  sum := 0
  deadline := none
  epoch := none
  outcome := .none
  save := .none

/-- R202: every flag clear. -/
def Flags.clear : Flags := ⟨false, false, false, false, false, false, false⟩

/-- R4: all five causes. -/
def Causes.all : Causes := ⟨true, true, true, true, true⟩

/-- Every input pin low and every analog input at code 0 (DESIGN CHOICE, log entry 3). -/
def Pins.low : Pins where
  role := false
  rate1 := false
  rate0 := false
  intents := Vector.replicate 8 false
  crank := false
  senseV := Vector.replicate 8 0
  senseI := Vector.replicate 8 0
  vsup := 0
  front := false

/-- R107, R220: a store never written, every byte FFh (DESIGN CHOICE, log entry 3). -/
def Store.erased : Store where
  config := List.replicate 29 0xFF#8
  refs := Vector.replicate 8 (List.replicate 3 0xFF#8)

/-- R4, R5, R61: a NOT FITTED circuit of an erased block after start-up reset (its function: DESIGN CHOICE, log entry
17). -/
def Circuit.unfitted : Circuit where
  cfg := ⟨.aux, .notFitted, 0, 0⟩
  energized := false
  lastOn := none
  pendingSample := none
  glitch := 0
  tracker := .dormant
  opened := none
  queue := []
  last := none
  filter := .start 0
  ref := .unlearned

/-- R9, R12, R25: the converter after start-up reset. -/
def Converter.start : Converter where
  grant := none
  confirmQueue := []
  spotWaiting := false
  spotSinceScan := false
  scanWaiting := none
  scanPos := 0
  scanDue := 0

/-- R139: the link controller after start-up reset, before anything is queued. -/
def Link.start : Link where
  receiver := .hunt
  badRun := 0
  errors := ⟨0, 0, 0, 0, 0, 0⟩
  driveFaults := 0
  presence := .listening
  aloneAt := some 2000
  tx := .idle
  slots := ⟨none, none, none, none, none⟩
  cutRecord := []
  stuckHold := false
  gapNs := 0
  driverNs := 0
  lineNs := 0

/-- R166, R175: the balance checker after start-up reset. -/
def Balance.start : Balance where
  results := Vector.replicate 8 none
  unlistedAt := none
  filters := Vector.replicate 8 (.start 0)

/-- The station right after a start-up reset with every pin low and an erased store: a UNIT at 19200 with no identity
(R3, R4, R6), every circuit NOT FITTED, every block at the start-up values of its chapter. Its first STATUS is formed
and dropped (R6, R127). -/
def State.reset : State where
  pending := []
  free := 0
  pins := .low
  store := .erased
  writes := ⟨[], none, none⟩
  cfg := ⟨.unit, .r19200, 0xFFFFFF#24, .all⟩
  ticks := 0
  conv := .start
  spot := ⟨none, none⟩
  vs := none
  lowSupply := ⟨false, none⟩
  circuits := #v[.unfitted, .unfitted, .unfitted, .unfitted, .unfitted, .unfitted, .unfitted, .unfitted]
  actedEpoch := none
  ring := []
  cmd := ⟨none, none, none, 0, 0⟩
  intent := ⟨Vector.replicate 8 false, false, Vector.replicate 8 0, 0⟩
  source := ⟨0, 250, 0, none⟩
  headClashAt := none
  link := .start
  tell := ⟨500, 100, false, none, none⟩
  rank := ⟨.acquiring, none, 0, some 500, none⟩
  rear := ⟨false, none, 0⟩
  roster := ⟨Vector.replicate 8 none, []⟩
  balance := .start
  faults := ⟨[], 0⟩
  warn := ⟨.off, false, none⟩
  events := []
  trainSeconds := 0
  secondAt := 1000
  learner := ⟨0, 0, []⟩
  query := ⟨none, 0, none, .none, 0⟩
  port := ⟨.none, none, []⟩
  flags := { Flags.clear with storeFault := true, configFault := true }

end Sys2Proof.Machine
end

