-- ==== Sys2Proof/Machine/Operands.lean ====
section
/-! DEFINITION. The part's arithmetic: rounding (R2), converter codes (R8), the lamp stages 1 to 6 (R21 to R23, R71 to
R73), and reading or replacing one of eight like things. -/

namespace Sys2Proof.Machine

/-- R2: a quotient rounded half up. -/
def divRound (num den : Nat) : Nat := (num + den / 2) / den

/-- A saturating count (00_scope.md, Ranges and saturation). -/
def satInc (max n : Nat) : Nat := min max (n + 1)

/-- The distance of two numbers. -/
def absDiff (a b : Nat) : Nat := (a - b) + (b - a)

/-- Eight things, each from its number. -/
def eight {α : Type} (f : Circ → α) : Vector α 8 :=
  #v[f 0, f 1, f 2, f 3, f 4, f 5, f 6, f 7]

/-- The numbers 0..7 in order. -/
def allCirc : List Circ := [0, 1, 2, 3, 4, 5, 6, 7]

/-- Eight things with number c replaced. -/
def put {α : Type} (v : Vector α 8) (c : Circ) (x : α) : Vector α 8 := v.set c x

/-! ## Codes and rates -/

/-- R8: a voltage code, 10 mV a step, 0..40950. -/
def millivolts (v : BitVec 12) : Nat := 10 * v.toNat

/-- R8: a current code, 2 mA a step, 0..8190. -/
def milliamps (i : BitVec 12) : Nat := 2 * i.toNat

/-- R3, R215: the rate code. -/
def Rate.code : Rate → Nat
  | .r19200 => 0 | .r38400 => 1 | .r57600 => 2 | .r115200 => 3

/-- R3, R116: bits per second. -/
def Rate.bps : Rate → Nat
  | .r19200 => 19200 | .r38400 => 38400 | .r57600 => 57600 | .r115200 => 115200

/-- R3: the strap rate of RATE1 and RATE0. -/
def Rate.ofStraps (rate1 rate0 : Bool) : Rate :=
  match rate1, rate0 with
  | false, false => .r19200
  | false, true => .r38400
  | true, false => .r57600
  | true, true => .r115200

/-- R119: whether a measured width lies within 12% of the rate's bit time, in exact arithmetic (DEDUCED, log entry
21). -/
def Rate.matches (r : Rate) (widthNs : Nat) : Bool :=
  88 * 1000000000 ≤ 100 * widthNs * r.bps && 100 * widthNs * r.bps ≤ 112 * 1000000000

/-- R119: the table rate a measured width qualifies for. -/
def Rate.ofWidth (widthNs : Nat) : Option Rate :=
  [Rate.r19200, .r38400, .r57600, .r115200].find? (·.matches widthNs)

/-! ## Functions and configurations -/

/-- R215: function codes. -/
def LampFn.idx : LampFn → Circ
  | .leftTurn => 0 | .rightTurn => 1 | .stop => 2 | .tail => 3
  | .marker => 4 | .reverse => 5 | .fog => 6 | .aux => 7

/-- R215: the function with a code. -/
def LampFn.ofIdx (i : Circ) : LampFn :=
  #v[LampFn.leftTurn, .rightTurn, .stop, .tail, .marker, .reverse, .fog, .aux][i]

/-- The turn functions. -/
def LampFn.isTurn : LampFn → Bool
  | .leftTurn | .rightTurn => true
  | .stop | .tail | .marker | .reverse | .fog | .aux => false

/-- R5: an effective INCANDESCENT or LED circuit. -/
def LoadKind.isLamp : LoadKind → Bool
  | .incandescent | .led => true
  | .notFitted | .feed => false

/-- R5: a fitted circuit. -/
def LoadKind.isFitted : LoadKind → Bool
  | .notFitted => false
  | .incandescent | .led | .feed => true

/-- R19: the blanking time. -/
def LoadKind.blanking : LoadKind → Ms
  | .incandescent => 60
  | .led | .feed | .notFitted => 20

/-! ## Stages 1 to 3 -/

/-- R21: a record mean, 0 when there is no sample (R47). -/
def meanOf (sum n : Nat) : Nat := if n = 0 then 0 else divRound sum n

/-- R21: too few settled samples for a lamp estimate. A missed-flash record holds none. -/
def tooFew (k : RecordKind) (n : Nat) : Bool :=
  match k with
  | .window => n < 5
  | .onPhase => n < 2
  | .missedFlash => true

/-- R23: the clamped voltage. -/
def clampV (vm : Nat) : Nat := min (max vm 18000) 32000

/-- R23: In by load kind; the incandescent factor 2400000 + 55 × (24000 − V) is formed without a negative step. A
spot reading of a NOT FITTED circuit reports 0 (R211). -/
def normalise (kind : LoadKind) (im vm : Nat) : Nat :=
  match kind with
  | .incandescent => divRound (im * (2400000 + 55 * 24000 - 55 * clampV vm)) 2400000
  | .led => divRound (im * clampV vm) 24000
  | .feed => im
  | .notFitted => 0

/-! ## Stages 4 to 6 -/

/-- R71: the nominal reference n × rating × 10 mA. -/
def CircuitCfg.nominal (c : CircuitCfg) : Nat := c.n * c.rating * 10

/-- R71: the reference and whether it is the nominal one. -/
def Circuit.reference (c : Circuit) : Nat × Bool :=
  match c.ref.iref with
  | some r => (r, false)
  | none => (c.cfg.nominal, true)

/-- R72: the raw lamp estimate. -/
def rawEstimate (inorm n r : Nat) : Nat := (2 * inorm * n + r) / (2 * r)

/-- R73: the lamp verdict and the reported m. -/
def classifyLamp (inorm n r : Nat) : Option FaultKind × Nat :=
  if 2 * inorm > 3 * r then (some .overload, n)
  else if rawEstimate inorm n r = 0 then (some .lampOut, 0)
  else if rawEstimate inorm n r < n then (some .lampPartial, rawEstimate inorm n r)
  else (none, n)

/-! ## Adoption window -/

/-- R103: half to one and a half times the nominal reference, and 1..10920. -/
def CircuitCfg.adopts (c : CircuitCfg) (iref : Nat) : Bool :=
  (c.nominal + 1) / 2 ≤ iref && iref ≤ (3 * c.nominal + 1) / 2 && 1 ≤ iref && iref ≤ 10920

/-! ## Severity -/

/-- R79: STOP and the turn functions rank above the others. -/
def LampFn.isUrgent : LampFn → Bool
  | .stop | .leftTurn | .rightTurn => true
  | .tail | .marker | .reverse | .fog | .aux => false

/-- R79: the grade of a kind and, where it has one, its function. -/
def severityOf (k : FaultKind) (f : Option LampFn) : Severity :=
  let urgent := (f.map LampFn.isUrgent).getD false
  match k with
  | .lampOut | .noSupply => if urgent then .critical else .major
  | .lampPartial | .flicker => if urgent then .major else .minor
  | .overload | .leakage | .unitSilent | .rankClash => .major
  | .stray | .cadence => .minor
  | .headClash => .critical

end Sys2Proof.Machine
end

