-- ==== Sys2Proof/Machine/Flags.lean ====
section
/-! DEFINITION. Readings of the state that several blocks share: the clock, roles and identity, the active cause set
and coasting (R56 to R58), the record mode (R41), expected states (R52, R54, R55), roster lookups, codes of flags. -/

namespace Sys2Proof.Machine

/-- R3: the station's time in ms since its start-up reset. Moments are kept in it, so two of them compare by their
difference, and the wrap of the count has no effect on a timer or a record (DEDUCED, log entry 4). -/
def State.now (s : State) : Ms := s.ticks / 8

/-- R3: the station millisecond count, 32 bits wide. Only what a rule compares with a fixed count reads it (R49,
R112; log entry 4). -/
def State.count (s : State) : Nat := s.now % 4294967296

def State.isHead (s : State) : Bool := s.cfg.role = .head

/-- R6: a serial that is not 0 or FFFFFFh. -/
def validSerial (n : Serial) : Bool := n != 0 && n != 0xFFFFFF

/-- R6, R127: a station whose pending set takes no telegram. -/
def State.isSilent (s : State) : Bool := !validSerial s.cfg.serial || s.link.tx == .latchedOff

/-! ## Sticky flags and causes as bits -/

/-- R218: the sticky flag mask. -/
def Flags.toByte (f : Flags) : Byte :=
  byteOfBits f.eventOverflow f.listOverflow f.txCutoff f.lineStuck f.storeFault f.configFault f.rosterFull false

/-- R202: the flags named in a mask, cleared. -/
def Flags.clearMask (f : Flags) (m : Byte) : Flags where
  eventOverflow := f.eventOverflow && !m.getLsbD 0
  listOverflow := f.listOverflow && !m.getLsbD 1
  txCutoff := f.txCutoff && !m.getLsbD 2
  lineStuck := f.lineStuck && !m.getLsbD 3
  storeFault := f.storeFault && !m.getLsbD 4
  configFault := f.configFault && !m.getLsbD 5
  rosterFull := f.rosterFull && !m.getLsbD 6

/-- R215: the cause set as five bits. -/
def Causes.toBits (c : Causes) : BitVec 5 :=
  BitVec.ofBool c.unranked ++ BitVec.ofBool c.headClash ++ BitVec.ofBool c.commandLost ++
    BitVec.ofBool c.cranking ++ BitVec.ofBool c.lowSupply

/-- R215: the cause set of a byte; bits 7..5 are not named. -/
def Causes.ofBits (b : BitVec 5) : Causes where
  lowSupply := b.getLsbD 0
  cranking := b.getLsbD 1
  commandLost := b.getLsbD 2
  headClash := b.getLsbD 3
  unranked := b.getLsbD 4

/-- R56: whether some cause is in both sets. -/
def Causes.meets (a b : Causes) : Bool :=
  a.lowSupply && b.lowSupply || a.cranking && b.cranking || a.commandLost && b.commandLost ||
    a.headClash && b.headClash || a.unranked && b.unranked

/-- R58: the unit's newest ring entry carries CRANK. -/
def crankInRing (ring : List RingEntry) : Bool := (ring.getLast?.map RingEntry.crank).getD false

/-- R142: whether the rank unit is RANKED. -/
def RankState.isRanked : RankState → Bool
  | .ranked _ => true
  | .acquiring | .unranked _ => false

/-- R142: the rank, or none. -/
def RankState.rank? : RankState → Option Rank
  | .ranked r => some r
  | .acquiring | .unranked _ => none

/-- R56 to R58, R155: the active cause set. -/
def State.activeCauses (s : State) : Causes where
  lowSupply := s.lowSupply.active
  cranking := if s.isHead then s.intent.crank else crankInRing s.ring
  commandLost := !s.isHead && s.cmd.staleAt.isNone
  headClash := s.headClashAt.isSome
  unranked := !s.isHead && !s.rank.state.isRanked

/-- R56: the station coasts while some cause is both active and enabled. -/
def State.coasting (s : State) : Bool := s.activeCauses.meets s.cfg.coastMask

/-! ## Expected states -/

/-- R52: the state of a function in the newest ring entry; none is unknown. -/
def currentState (ring : List RingEntry) (f : LampFn) : Option FnState :=
  ring.getLast?.map fun e => e.states[f.idx]

/-- R54: the state of f in the newest entry dated no later than `t − 300`; none is unknown. Times are shifted by 300
so that the interval of R55 may begin before the count's 0. -/
def stateAt300 (ring : List RingEntry) (f : LampFn) (t : Ms) : Option FnState :=
  currentState (ring.filter fun e => decide (e.date + 300 ≤ t)) f

/-- R55: the expected state of a record from `start` to `finish`: known, and one value from start − 300 through
finish + 300. -/
def settled (ring : List RingEntry) (f : LampFn) (start finish : Ms) : Option FnState :=
  match stateAt300 ring f start with
  | none => none
  | some v =>
    if (ring.filter fun e => decide (start < e.date + 300) && decide (e.date ≤ finish + 300)).all
        fun e => stateAt300 ring f (e.date + 300) = some v
    then some v else none

/-! ## Circuits -/

/-- R41: the record mode is ON PHASE while the tracker is ACTIVE or LINGERING. -/
def Tracker.onPhaseMode (t : Tracker) : Bool := t.activity != .dormant

/-- R26: a circuit whose tracker takes edges. -/
def CircuitCfg.tracks (c : CircuitCfg) : Bool := c.kind.isFitted && c.fn.isTurn

/-- R7: the lowest-numbered FEED circuit of a function on a head station. -/
def State.balanceFeed (s : State) (f : LampFn) : Option Circ :=
  if s.isHead then
    allCirc.find? fun c => s.circuits[c].cfg.kind == .feed && s.circuits[c].cfg.fn == f
  else none

/-! ## Roster -/

/-- R147: whether a slot is closed. -/
def State.slotClosed (s : State) (r : Rank) : Bool := s.rank.state == .ranked r

/-- R148: FRESH below an age of 1000. An entry turns STALE at its place among the effects of the millisecond in which
its age reaches 1000 (`State.ageEntries`): a record taken before it in that millisecond finds it FRESH, one taken after
it STALE (R160, R174; DESIGN CHOICE, log entry 34). -/
def RosterEntry.isFresh (e : RosterEntry) : Bool := !e.aged

/-- R148: the age of a FRESH entry has reached 1000. -/
def RosterEntry.ages (e : RosterEntry) (now : Ms) : Bool := !e.aged && decide (e.heard + 1000 ≤ now)

/-- R148: some entry of the roster turns STALE now. -/
def Roster.ages (r : Roster) (now : Ms) : Bool :=
  (allCirc.any fun i => (r.slots[i].map (·.ages now)).getD false) || r.unplaced.any (·.ages now)

/-- R148: an entry whose age has reached 1000 is STALE. -/
def RosterEntry.age (e : RosterEntry) (now : Ms) : RosterEntry := if e.ages now then { e with aged := true } else e

/-- R148: every entry whose age has reached 1000 turned STALE. -/
def Roster.age (r : Roster) (now : Ms) : Roster :=
  ⟨eight fun i => r.slots[i].map (·.age now), r.unplaced.map (·.age now)⟩

/-- R148, R152: the age has reached 1500. -/
def RosterEntry.isExpired (e : RosterEntry) (now : Ms) : Bool := decide (e.heard + 1500 ≤ now)

/-- The ranked slot that holds serial n. -/
def Roster.slotOf (r : Roster) (n : Serial) : Option Rank :=
  allCirc.find? fun i => (r.slots[i].map RosterEntry.serial) == some n

/-- The entry of serial n, in a slot or in the unplaced list. -/
def Roster.entryOf (r : Roster) (n : Serial) : Option RosterEntry :=
  match r.slotOf n with
  | some i => r.slots[i]
  | none => r.unplaced.find? (·.serial == n)

/-- R50, R99, R124: a head-flagged sender that is the slot-0 serial, or any where slot 0 holds no entry. -/
def State.eligible (s : State) (h : RxHeader) : Bool :=
  h.head && (match s.roster.slots[(0 : Rank)] with
    | none => true
    | some e => e.serial == h.serial)

/-! ## Port and pending set -/

/-- R208: the learn tracker is in progress. -/
def State.learnInProgress (s : State) : Bool := !s.learner.tracked.isEmpty

/-- R127: whether every slot is empty. -/
def Slots.isEmpty (p : Slots) : Bool :=
  p.command.isNone && p.learn.isNone && p.query.isNone && p.reading.isNone && p.status.isNone

/-- R129: the lowest kind code in the pending set with its payload characters. -/
def Slots.lowest (p : Slots) : Option (TKind × Nat) :=
  match p.command, p.learn, p.query, p.reading, p.status with
  | some v, _, _, _, _ => some (.command, v.toNat)
  | none, some v, _, _, _ => some (.learn, v.toNat)
  | none, none, some v, _, _ => some (.query, v.toNat)
  | none, none, none, some v, _ => some (.reading, v.toNat)
  | none, none, none, none, some v => some (.status, v.toNat)
  | none, none, none, none, none => none

/-- R125: the send rate, none while LISTENING. -/
def Presence.sendRate : Presence → Option Rate
  | .listening => none
  | .alone r => some r
  | .joined r => some r

/-- R119: the receive rate, none in HUNT. -/
def Receiver.rate : Receiver → Option Rate
  | .hunt => none
  | .verify r _ => some r
  | .synced r => some r

/-- R129: SENDING. -/
def TxState.isSending : TxState → Bool
  | .sending _ => true
  | .idle | .waitGap | .yielded | .cutOff | .latchedOff => false

end Sys2Proof.Machine
end

