-- ==== Sys2Proof/Machine/Formats.lean ====
section
/-! DEFINITION. The byte layouts of chapter 12: codes (R215), payloads and their range test (R216, R217), replies
(R218), stored items (R219, R220). -/

namespace Sys2Proof.Machine

/-! ## Codes (R215) -/

def LoadKind.code : LoadKind → Nat
  | .notFitted => 0 | .incandescent => 1 | .led => 2 | .feed => 3

def LoadKind.ofCode (v : BitVec 2) : LoadKind :=
  if v = 0 then .notFitted else if v = 1 then .incandescent else if v = 2 then .led else .feed

def LampFn.code (f : LampFn) : Nat := f.idx.val

def LampFn.ofCode (v : BitVec 3) : LampFn := .ofIdx ⟨v.toNat, v.isLt⟩

def FnState.code : FnState → Nat
  | .off => 0 | .on => 1 | .flashing => 2

/-- Function state 3 is out of range (R217). -/
def FnState.ofCode (v : BitVec 2) : Option FnState :=
  if v = 0 then some .off else if v = 1 then some .on else if v = 2 then some .flashing else none

def FaultKind.code : FaultKind → Nat
  | .lampOut => 1 | .lampPartial => 2 | .overload => 3 | .noSupply => 4 | .flicker => 5 | .stray => 6
  | .cadence => 7 | .leakage => 8 | .unitSilent => 9 | .rankClash => 10 | .headClash => 11

/-- A fault kind that may be none. -/
def kindCode (k : Option FaultKind) : Nat := (k.map FaultKind.code).getD 0

/-- The kinds a STATUS circuit word can carry (R216). -/
def kindOfCode (v : BitVec 3) : Option FaultKind :=
  if v = 1 then some .lampOut else if v = 2 then some .lampPartial else if v = 3 then some .overload
  else if v = 4 then some .noSupply else if v = 5 then some .flicker else if v = 6 then some .stray
  else if v = 7 then some .cadence else none

def Attribution.code : Attribution → Nat
  | .coupling => 1 | .shadowed => 2 | .unattributed => 3 | .tractor => 4

def attributionCode (a : Option Attribution) : Nat := (a.map Attribution.code).getD 0

/-- Codes above 4 are out of range (R217) and are refused before this is read. -/
def attributionOfCode (v : BitVec 3) : Option Attribution :=
  if v = 1 then some .coupling else if v = 2 then some .shadowed else if v = 3 then some .unattributed
  else if v = 4 then some .tractor else none

def LearnState.code : LearnState → Nat
  | .unlearned => 0 | .learning => 1 | .learned => 2

/-- Learn state 3 is out of range (R217). -/
def LearnState.ofCode (v : BitVec 2) : Option LearnState :=
  if v = 0 then some .unlearned else if v = 1 then some .learning else if v = 2 then some .learned else none

/-- A rank that may be none: 8 for none. -/
def rankCode (r : Option Rank) : Nat := (r.map Fin.val).getD 8

/-- A front rank that may be none: 8 for none. -/
def frontCode (r : Option Nat) : Nat := r.getD 8

/-- A link rate that may be none: 4 for none. -/
def rateCode (r : Option Rate) : Nat := (r.map Rate.code).getD 4

def Severity.code : Severity → Nat
  | .minor => 0 | .major => 1 | .critical => 2

def signCode (s : Option Sign) : Nat :=
  match s with
  | none => 0
  | some .sink => 1
  | some .source => 2

/-! ## STATUS payload (R216) -/

/-- A STATUS circuit word. -/
def CircuitReport.word (r : CircuitReport) : BitVec 32 :=
  BitVec.ofNat 12 ((r.mean + 1) / 2) ++ BitVec.ofNat 3 (r.front.getD 0) ++
    BitVec.ofNat 3 (attributionCode r.attribution) ++ BitVec.ofNat 4 r.m ++
    BitVec.ofNat 3 (kindCode r.confirmed) ++ BitVec.ofBool r.judged ++ BitVec.ofBool r.energized ++
    BitVec.ofNat 2 r.kind.code ++ BitVec.ofNat 3 r.fn.code

/-- A STATUS circuit word and the circuit's two learn bits read back; none when a field is out of range (R217). The
front rank counts only with COUPLING, and the mean is twice its 2 mA units (R148). -/
def CircuitReport.ofWord (w : BitVec 32) (learn : BitVec 2) : Option CircuitReport :=
  match LearnState.ofCode learn with
  | none => none
  | some l =>
    if 4 < (w.extractLsb' 14 3).toNat || 8 < (w.extractLsb' 10 4).toNat || 6 < (w.extractLsb' 17 3).toNat then none
    else some {
      fn := .ofCode (w.extractLsb' 0 3)
      kind := .ofCode (w.extractLsb' 3 2)
      energized := w.getLsbD 5
      judged := w.getLsbD 6
      confirmed := kindOfCode (w.extractLsb' 7 3)
      m := (w.extractLsb' 10 4).toNat
      attribution := attributionOfCode (w.extractLsb' 14 3)
      front := if attributionOfCode (w.extractLsb' 14 3) = some .coupling then some (w.extractLsb' 17 3).toNat else none
      mean := 2 * (w.extractLsb' 20 12).toNat
      learn := l }

/-- The learn states of C0..C7, two bits each. -/
def Report.learnBits (r : Report) : BitVec 16 :=
  BitVec.ofNat 2 r.circuits[7].learn.code ++ BitVec.ofNat 2 r.circuits[6].learn.code ++
    BitVec.ofNat 2 r.circuits[5].learn.code ++ BitVec.ofNat 2 r.circuits[4].learn.code ++
    BitVec.ofNat 2 r.circuits[3].learn.code ++ BitVec.ofNat 2 r.circuits[2].learn.code ++
    BitVec.ofNat 2 r.circuits[1].learn.code ++ BitVec.ofNat 2 r.circuits[0].learn.code

/-- The STATUS payload. -/
def Report.encode (r : Report) : BitVec 288 :=
  r.circuits[7].word ++ r.circuits[6].word ++ r.circuits[5].word ++ r.circuits[4].word ++
    r.circuits[3].word ++ r.circuits[2].word ++ r.circuits[1].word ++ r.circuits[0].word ++
    r.learnBits ++ r.echoed.getD 0 ++ BitVec.ofBool r.echoed.isNone ++ 0#2 ++ r.causes.toBits

/-- Circuit c of a STATUS payload. -/
def reportCircuit (p : BitVec 288) (c : Circ) : Option CircuitReport :=
  CircuitReport.ofWord (p.extractLsb' (32 + 32 * c.val) 32) (p.extractLsb' (16 + 2 * c.val) 2)

/-- Eight results, or none if any is none. -/
def eightM {α : Type} (f : Circ → Option α) : Option (Vector α 8) :=
  match f 0, f 1, f 2, f 3, f 4, f 5, f 6, f 7 with
  | some a, some b, some c, some d, some e, some g, some h, some i => some #v[a, b, c, d, e, g, h, i]
  | _, _, _, _, _, _, _, _ => none

/-- A STATUS payload read back; none when it fails the range test of R217. -/
def Report.decode (p : BitVec 288) : Option Report :=
  (eightM (reportCircuit p)).map fun cs =>
    { causes := .ofBits (p.extractLsb' 0 5)
      echoed := if p.getLsbD 7 then none else some (p.extractLsb' 8 8)
      circuits := cs }

/-! ## The other payloads (R216) -/

/-- The content of a COMMAND. `vs` is in 10 mV units. -/
structure CommandContent where
  epoch : Byte
  states : Vector FnState 8
  period : Nat
  crank : Bool
  fresh : Bool
  vs : Nat
  deriving DecidableEq, Repr

/-- The eight function states, two bits each, function 0 lowest. -/
def stateBits (v : Vector FnState 8) : BitVec 16 :=
  BitVec.ofNat 2 v[7].code ++ BitVec.ofNat 2 v[6].code ++ BitVec.ofNat 2 v[5].code ++ BitVec.ofNat 2 v[4].code ++
    BitVec.ofNat 2 v[3].code ++ BitVec.ofNat 2 v[2].code ++ BitVec.ofNat 2 v[1].code ++ BitVec.ofNat 2 v[0].code

def CommandContent.encode (c : CommandContent) : BitVec 64 :=
  BitVec.ofNat 16 c.vs ++ 0#6 ++ BitVec.ofBool c.fresh ++ BitVec.ofBool c.crank ++ BitVec.ofNat 16 c.period ++
    stateBits c.states ++ c.epoch

/-- A COMMAND payload read back; none for a function state of 3 or a flash period above 2000 (R217). -/
def CommandContent.decode (p : BitVec 64) : Option CommandContent :=
  match eightM fun f => FnState.ofCode (p.extractLsb' (8 + 2 * f.val) 2) with
  | none => none
  | some states =>
    if 2000 < (p.extractLsb' 24 16).toNat then none
    else some {
      epoch := p.extractLsb' 0 8
      states := states
      period := (p.extractLsb' 24 16).toNat
      crank := p.getLsbD 40
      fresh := p.getLsbD 41
      vs := (p.extractLsb' 48 16).toNat }

/-- A LEARN payload: learn epoch, station mask, circuit mask. -/
def learnPayload (epoch stations circuits : Byte) : BitVec 24 := circuits ++ stations ++ epoch

/-- A QUERY payload: tag, target rank, circuit. -/
def queryPayload (tag : BitVec 4) (rank : Rank) (c : Circ) : BitVec 24 :=
  BitVec.ofNat 8 c.val ++ BitVec.ofNat 8 rank.val ++ BitVec.ofNat 8 tag.toNat

/-- A QUERY payload read back: tag, target rank as sent, circuit; none for a tag above 15 or a circuit above 7
(R217, DEDUCED, log entry 13). -/
def queryDecode (p : BitVec 24) : Option (BitVec 4 × Byte × Circ) :=
  if 15 < (p.extractLsb' 0 8).toNat then none
  else if h : (p.extractLsb' 16 8).toNat < 8 then
    some (BitVec.ofNat 4 (p.extractLsb' 0 8).toNat, p.extractLsb' 8 8, ⟨(p.extractLsb' 16 8).toNat, h⟩)
  else none

/-- A READING payload. -/
def readingPayload (tag : BitVec 4) (c : Circ) (d : ReadingData) : BitVec 104 :=
  BitVec.ofNat 8 d.learn.code ++ BitVec.ofNat 8 d.n ++ BitVec.ofNat 8 d.m ++ BitVec.ofNat 16 d.r ++
    BitVec.ofNat 16 d.inorm ++ BitVec.ofNat 16 d.im ++ BitVec.ofNat 16 d.vm ++
    BitVec.ofNat 8 c.val ++ BitVec.ofNat 8 tag.toNat

/-- A READING payload read back; none for a tag above 15, a circuit above 7, m or n above 8, a learn state above 2
(R217). -/
def readingDecode (p : BitVec 104) : Option (BitVec 4 × Circ × ReadingData) :=
  if 15 < (p.extractLsb' 0 8).toNat || 8 < (p.extractLsb' 80 8).toNat || 8 < (p.extractLsb' 88 8).toNat then none
  else if h : (p.extractLsb' 8 8).toNat < 8 then
    if 2 < (p.extractLsb' 96 8).toNat then none
    else
      match LearnState.ofCode (p.extractLsb' 96 2) with
      | none => none
      | some l => some (BitVec.ofNat 4 (p.extractLsb' 0 8).toNat, ⟨(p.extractLsb' 8 8).toNat, h⟩,
          { vm := (p.extractLsb' 16 16).toNat
            im := (p.extractLsb' 32 16).toNat
            inorm := (p.extractLsb' 48 16).toNat
            r := (p.extractLsb' 64 16).toNat
            m := (p.extractLsb' 80 8).toNat
            n := (p.extractLsb' 88 8).toNat
            learn := l })
  else none

/-! ## Stored items (R219, R220) -/

/-- The check byte: the complement of the content's sum modulo 256. -/
def checkByte (content : List Byte) : Byte := ~~~ content.foldl (· + ·) 0#8

/-- An item as it is written: content and check byte. -/
def withCheck (content : List Byte) : List Byte := content ++ [checkByte content]

/-- R107: what an item reads as. -/
inductive ItemCondition where
  | erased | good | bad
  deriving DecidableEq, Repr

/-- R220: every byte FFh is erased; otherwise the check byte decides. -/
def itemCondition (bytes : List Byte) : ItemCondition :=
  if bytes.all (· == 0xFF#8) then .erased
  else if bytes = withCheck bytes.dropLast then .good
  else .bad

/-- R219: the two content bytes of a reference record. -/
def refContent (iref : Nat) : List Byte := bytesLE 2 iref

/-- R219: the unit serial of a configuration block. -/
def blockSerial (block : List Byte) : Serial := BitVec.ofNat 24 (natLE (block.take 3))

/-- R215, R219: the coast enable mask. -/
def blockMask (block : List Byte) : Causes := .ofBits ((block.getD 3 0).extractLsb' 0 5)

/-- R219: the circuit word of Cc. -/
def blockWord (block : List Byte) (c : Circ) : BitVec 24 :=
  BitVec.ofNat 24 (natLE ((block.drop (4 + 3 * c.val)).take 3))

/-- R219: the stored fields of a circuit word; bits 23..19 are ignored. -/
def wordCfg (w : BitVec 24) : CircuitCfg where
  fn := .ofCode (w.extractLsb' 0 3)
  kind := .ofCode (w.extractLsb' 3 2)
  n := (w.extractLsb' 5 4).toNat
  rating := (w.extractLsb' 9 10).toNat

/-! ## Replies (R218) -/

/-- The outcome codes. -/
def codeDone : Byte := 0x01
def codeAccepted : Byte := 0x02
def codeNotReady : Byte := 0x10
def codeNoRequest : Byte := 0x11
def codeBadFrame : Byte := 0x12
def codeUnknown : Byte := 0x13
def codeNotHead : Byte := 0x20
def codeBadRequest : Byte := 0x21
def codeBusy : Byte := 0x30
def codeNoStation : Byte := 0x31
def codeNoEntry : Byte := 0x32
def codeMismatch : Byte := 0x33
def codeEmpty : Byte := 0x34
def codeTooLate : Byte := 0x40
def codeLowSupply : Byte := 0x41
def codeFailed : Byte := 0x42

/-- A reply: outcome, length of the data, data. -/
def replyBytes (outcome : Byte) (data : List Byte) : List Byte :=
  outcome :: BitVec.ofNat 8 data.length :: data

/-- One byte. -/
def byte1 (n : Nat) : List Byte := [BitVec.ofNat 8 n]

/-- A value that may be none, as `k` bytes; none reads 0 (DEDUCED, log entry 29). -/
def optLE (k : Nat) (v : Option Nat) : List Byte := bytesLE k (v.getD 0)

/-- A value in a field of `k` bytes at an offset; the spec does not say what the field shows of a value too large for
it (DESIGN CHOICE, log entry 23). -/
def fieldLE (offset k v : Nat) : List Byte :=
  if v < 256 ^ k then bytesLE k v else bytesLE k (Config.wideField offset v)

/-- A flag as a number. -/
def bit (b : Bool) (weight : Nat) : Nat := if b then weight else 0

/-- An event in 10 bytes. -/
def Event.bytes (e : Event) : List Byte :=
  let (kind, index, status, serial) :=
    match e.body with
    | .faultConfirmed i n => (1, i, 0, n)
    | .faultCleared i n => (2, i, 0, n)
    | .faultOrphaned i n => (3, i, 0, n)
    | .stationJoined n => (4, 0, 0, n)
    | .stationLost n => (5, 0, 0, n)
    | .rankChanged n => (6, 0, 0, n)
    | .learnDone n .done => (7, 0, 1, n)
    | .learnDone n .notStarted => (7, 0, 2, n)
    | .learnDone n .lost => (7, 0, 3, n)
    | .spotDone n tag timeout => (8, tag.toNat, if timeout then 2 else 1, n)
    | .coastBegin => (9, 0, 0, 0#24)
    | .coastEnd => (10, 0, 0, 0#24)
  byte1 kind ++ byte1 index ++ byte1 status ++ bytesLE 3 serial.toNat ++ bytesLE 4 e.seconds.toNat

/-- The entry states' codes. -/
def EntryState.code : EntryState → Nat
  | .active => 0 | .cleared => 1 | .orphaned => 2

/-- A fault list entry in 19 bytes. -/
def Entry.bytes (e : Entry) : List Byte :=
  bytesLE 3 e.key.serial.toNat ++ byte1 e.key.kind.code ++
    byte1 (match e.key.circuit with
      | some c => c.val
      | none => (e.key.fn.map LampFn.code).getD 0) ++
    byte1 ((e.key.fn.map LampFn.code).getD 8) ++
    byte1 (e.severity.code + 4 * e.state.code + bit e.acked 16 + bit (e.details.sign == some .source) 32) ++
    byte1 e.occurrences ++ bytesLE 4 e.first.toNat ++ byte1 (rankCode e.rankConf) ++ byte1 (rankCode e.rankCur) ++
    byte1 e.details.m ++ byte1 (attributionCode e.details.attribution) ++ byte1 (e.details.front.getD 0) ++
    [e.details.mask] ++ byte1 e.extent

/-- A ROSTER entry in 47 bytes; `place` is its slot, 8 for the unplaced list. -/
def RosterEntry.bytes (e : RosterEntry) (place : Nat) : List Byte :=
  byte1 2 ++ bytesLE 3 e.serial.toNat ++ byte1 place ++ byte1 (rankCode e.claimed) ++
    byte1 (bit e.head 1 + bit e.clash 2 + bit (!e.isFresh) 4) ++ bytesLE 4 e.heard ++
    bytesLE 36 e.report.encode.toNat

/-- The rank state's code, and the unranked cause's. -/
def RankState.code : RankState → Nat
  | .acquiring => 0 | .ranked _ => 1 | .unranked _ => 2

def RankState.causeCode : RankState → Nat
  | .unranked .frontSilent => 1
  | .unranked .overflow => 2
  | .acquiring | .ranked _ => 0

def Presence.code : Presence → Nat
  | .listening => 0 | .alone _ => 1 | .joined _ => 2

def Receiver.code : Receiver → Nat
  | .hunt => 0 | .verify _ _ => 1 | .synced _ => 2

def TxState.code : TxState → Nat
  | .idle => 0 | .waitGap => 1 | .sending _ => 2 | .yielded => 3 | .cutOff => 4 | .latchedOff => 5

def WarnState.code : WarnState → Nat
  | .off => 0 | .steady => 1 | .blink => 2

/-- R203: the STATUS reply, 23 bytes. The head's items read 0 and OFF on a unit, whose blocks keep those values. -/
def State.statusReply (s : State) : List Byte :=
  byte1 (bit s.isHead 1 + bit (!validSerial s.cfg.serial) 2 + bit s.coasting 4) ++
    bytesLE 3 s.cfg.serial.toNat ++ byte1 s.rank.state.code ++ byte1 (rankCode s.rank.state.rank?) ++
    byte1 s.rank.state.causeCode ++ byte1 s.link.presence.code ++ byte1 (rateCode s.link.presence.sendRate) ++
    byte1 s.link.receiver.code ++ byte1 (rateCode s.link.receiver.rate) ++ byte1 s.link.tx.code ++
    byte1 s.activeCauses.toBits.toNat ++ byte1 s.cfg.coastMask.toBits.toNat ++
    byte1 (if s.isHead then s.faults.entries.length else 0) ++
    byte1 (if s.isHead then s.warn.state.code else 0) ++
    byte1 (if s.isHead then s.events.length else 0) ++
    byte1 (if s.isHead then s.faults.overflow else 0) ++
    bytesLE 4 (if s.isHead then s.trainSeconds.toNat else 0) ++ [s.flags.toByte]

/-- R205, R218: the none mask of LOCAL. -/
def State.noneMask (s : State) (c : Circ) : Nat :=
  let k := s.circuits[c]
  bit k.lastOn.isNone 1 + bit k.tracker.prevOn.isNone 2 + bit k.tracker.phaseStart.isNone 4 +
    bit k.tracker.pbar.isNone 8 + bit k.tracker.lastT.isNone 16 + bit k.tracker.compareAt.isNone 32 +
    bit k.tracker.silenceAt.isNone 64 + bit k.tracker.lingerAt.isNone 128 + bit k.ref.deadline.isNone 256 +
    bit k.ref.epoch.isNone 512 + bit s.actedEpoch.isNone 1024

/-- Bytes 13 to 52 of LOCAL: the cadence tracker and its latest note. -/
def Tracker.bytes (t : Tracker) : List Byte :=
  byte1 ((match t.activity with | .dormant => 0 | .active => 1 | .lingering => 2) + bit t.locked 4 +
      8 * t.window.length) ++
    optLE 4 t.prevOn ++ optLE 4 t.phaseStart ++
    bytesLE 2 (t.window.getD 0 0) ++ bytesLE 2 (t.window.getD 1 0) ++ bytesLE 2 (t.window.getD 2 0) ++
    bytesLE 2 (t.window.getD 3 0) ++ optLE 2 t.pbar ++ fieldLE 32 2 (t.lastT.getD 0) ++
    byte1 (t.disagree + 4 * t.miss) ++ optLE 4 t.compareAt ++ optLE 4 t.silenceAt ++ optLE 4 t.lingerAt ++
    (match t.latestNote with
      | none => [0#8, 0#8, 0#8, 0#8, 0#8, 0#8]
      | some n => byte1 (bit n.period 1 + bit n.duty 2 + bit n.mismatch 4) ++ bytesLE 2 n.pbar ++
          fieldLE 50 2 n.onTime ++ fieldLE 52 1 n.dutyPercent)

/-- Bytes 53 to 65 of LOCAL: the last record, its verdict and its severity (R80). -/
def lastBytes (last : Option LastRecord) (f : LampFn) : List Byte :=
  let kind := match last.map LastRecord.kind with
    | none => 0
    | some .window => 1
    | some .onPhase => 2
    | some .missedFlash => 3
  let v := last.bind LastRecord.verdict
  byte1 (kind + bit v.isSome 128) ++ bytesLE 2 ((last.map LastRecord.im).getD 0) ++
    (match v with
      | none => byte1 15 ++ [0#8, 0#8, 0#8, 0#8, 0#8, 0#8, 0#8] ++ byte1 8 ++ byte1 3
      | some v =>
        byte1 (kindCode v.kind) ++
          byte1 (bit v.lamp.isSome 1 + bit ((v.lamp.map LampStages.nominal).getD false) 2 + bit v.findings.period 4 +
            bit v.findings.duty 8 + bit v.findings.mismatch 16 + bit v.findings.heldOn 32) ++
          bytesLE 2 ((v.lamp.map LampStages.inorm).getD 0) ++ bytesLE 2 ((v.lamp.map LampStages.r).getD 0) ++
          byte1 ((v.lamp.map LampStages.m).getD 0 + 16 * (v.lamp.map LampStages.n).getD 0) ++
          byte1 (attributionCode v.attribution) ++ byte1 (frontCode v.front) ++
          byte1 (match v.kind with
            | none => 3
            | some k => (severityOf k (some f)).code))

/-- Bytes 66 to 73 of LOCAL: a circuit's filter. -/
def Filter.bytes (f : Filter) : List Byte :=
  byte1 (kindCode f.candidate) ++ byte1 (f.confirm + 4 * f.clear) ++ byte1 (kindCode f.confirmed) ++
    byte1 (f.m.getD 15) ++ byte1 f.n ++ byte1 (attributionCode f.attribution) ++ byte1 (frontCode f.front) ++
    byte1 (signCode f.sign)

def LearnOutcome.code : LearnOutcome → Nat
  | .none => 0 | .done => 1 | .failedOutOfRange => 2 | .failedNotLit => 3 | .recordBad => 4 | .recordDiscarded => 5

def SaveState.code : SaveState → Nat
  | .none => 0 | .waiting => 1 | .writing => 2 | .saved => 3 | .failed => 4

/-- Bytes 74 to 88 of LOCAL: the reference unit. -/
def RefUnit.bytes (r : RefUnit) : List Byte :=
  byte1 r.learn.code ++ optLE 2 r.iref ++ byte1 r.k ++ bytesLE 4 r.sum ++ optLE 4 r.deadline ++
    optLE 1 (r.epoch.map BitVec.toNat) ++ byte1 r.outcome.code ++ byte1 r.save.code

/-- Four bytes of a signed number, two's complement. -/
def signedLE4 (i : Int) : List Byte := bytesLE 4 (BitVec.ofInt 32 i).toNat

def ThinReason.code : ThinReason → Nat
  | .feed => 1 | .coast => 2 | .unplaced => 3 | .unlisted => 4 | .stale => 5 | .unjudged => 6

/-- Bytes 97 to 108 of LOCAL. -/
def BalanceFigures.bytes (f : BalanceFigures) : List Byte :=
  bytesLE 2 f.ihead ++ bytesLE 4 f.sum ++ signedLE4 f.diff ++ bytesLE 2 f.threshold

/-- Bytes 94 to 112 of LOCAL: a function's balance result; absent figures read 0. -/
def balanceBytes (r : Option BalanceRecord) : List Byte :=
  match r with
  | none => List.replicate 19 0#8
  | some ⟨.leakage sg f, t⟩ => byte1 1 ++ byte1 0 ++ byte1 (signCode (some sg)) ++ f.bytes ++ bytesLE 4 t
  | some ⟨.clean f, t⟩ => byte1 2 ++ byte1 0 ++ byte1 0 ++ f.bytes ++ bytesLE 4 t
  | some ⟨.thin w, t⟩ => byte1 3 ++ byte1 w.code ++ byte1 0 ++ List.replicate 12 0#8 ++ bytesLE 4 t

/-- Bytes 113 to 116 of LOCAL: a function's balance filter. -/
def balanceFilterBytes (f : Filter) : List Byte :=
  byte1 (kindCode f.candidate) ++ byte1 (f.confirm + 4 * f.clear) ++ byte1 (kindCode f.confirmed) ++
    byte1 (signCode f.sign)

/-- R205, R218: the LOCAL reply, 117 bytes. -/
def State.localReply (s : State) (c : Circ) : List Byte :=
  let k := s.circuits[c]
  byte1 c.val ++ byte1 (k.cfg.fn.code + 8 * k.cfg.kind.code + bit k.energized 32) ++ byte1 k.cfg.n ++
    bytesLE 2 k.cfg.rating ++ bytesLE 2 (s.noneMask c) ++ optLE 4 k.lastOn ++ bytesLE 2 k.glitch ++
    k.tracker.bytes ++ lastBytes k.last k.cfg.fn ++ k.filter.bytes ++ k.ref.bytes ++
    optLE 1 (s.actedEpoch.map BitVec.toNat) ++ bytesLE 2 (s.vs.getD 0) ++
    fieldLE 92 2 (if s.isHead then 0 else s.cmd.headSupply) ++
    (if s.balanceFeed k.cfg.fn = some c then
      balanceBytes s.balance.results[k.cfg.fn.idx] ++ balanceFilterBytes s.balance.filters[k.cfg.fn.idx]
    else List.replicate 23 0#8)

/-- R205, R218: the TALLIES reply, 34 bytes. -/
def State.talliesReply (s : State) : List Byte :=
  bytesLE 2 s.link.errors.command ++ bytesLE 2 s.link.errors.learn ++ bytesLE 2 s.link.errors.query ++
    bytesLE 2 s.link.errors.reading ++ bytesLE 2 s.link.errors.status ++ bytesLE 2 s.link.errors.unkinded ++
    bytesLE 2 s.link.driveFaults ++ allCirc.flatMap (fun c => bytesLE 2 s.circuits[c].glitch) ++
    bytesLE 2 s.cmd.staleTally ++ bytesLE 2 (if s.isHead then s.query.late else 0)

/-- The query part of a spot result. -/
def Query.bytes (q : Query) : List Byte :=
  byte1 q.tag.toNat ++ byte1 q.rank.val ++ bytesLE 3 q.serial.toNat ++ byte1 q.circuit.val

/-- R210, R218: the SPOT RESULT reply, 18 bytes. -/
def SpotResult.bytes : SpotResult → List Byte
  | .none => List.replicate 18 0#8
  | .pending q => byte1 1 ++ q.bytes ++ List.replicate 11 0#8
  | .done q d => byte1 2 ++ q.bytes ++ bytesLE 2 d.vm ++ bytesLE 2 d.im ++ bytesLE 2 d.inorm ++ bytesLE 2 d.r ++
      byte1 d.m ++ byte1 d.n ++ byte1 d.learn.code
  | .timeout q => byte1 3 ++ q.bytes ++ List.replicate 11 0#8

end Sys2Proof.Machine
end

