-- ==== Sys2Proof/Machine/Ops.lean ====
section
/-! DEFINITION. Shared operations on the station: one circuit replaced, events and coasting (R59, R200), the pending
set (R127), STATUS and COMMAND formed and queued (R49, R136, R137), changes that queue a STATUS, the arbiter (R9 to
R11), and the clock. -/

namespace Sys2Proof.Machine

/-- One circuit replaced. -/
def State.setC (s : State) (c : Circ) (k : Circuit) : State := { s with circuits := put s.circuits c k }

/-! ## Events -/

/-- R200: an event put in the head's queue, or dropped with EVENT OVERFLOW. A unit raises none. -/
def State.raise (s : State) (b : EventBody) : State :=
  if s.isHead then
    if s.events.length < 16 then { s with events := s.events ++ [⟨b, s.trainSeconds⟩] }
    else { s with flags := { s.flags with eventOverflow := true } }
  else s

/-- R200: the ATTN pin is high while the queue holds an event. -/
def State.attn (s : State) : Bool := !s.events.isEmpty

/-- R59: the head's event when coasting begins or ends between two states. -/
def coastEdge (before s : State) : State :=
  if !before.coasting && s.coasting then s.raise .coastBegin
  else if before.coasting && !s.coasting then s.raise .coastEnd
  else s

/-! ## The pending set -/

/-- R128, R129: what queuing a telegram of kind k does to the transmitter. -/
def TxState.queued (t : TxState) (k : TKind) : TxState :=
  match t with
  | .idle => .waitGap
  | .sending a => if a.kind = k then .sending { a with replaced := true } else .sending a
  | .waitGap => .waitGap
  | .yielded => .yielded
  | .cutOff => .cutOff
  | .latchedOff => .latchedOff

/-- R127: a telegram of kind k put in its slot, or dropped by a silent station. -/
def State.putSlot (s : State) (k : TKind) (f : Slots → Slots) : State :=
  if s.isSilent then s else { s with link := { s.link with slots := f s.link.slots, tx := s.link.tx.queued k } }

/-! ## STATUS -/

/-- R137: what a STATUS says of a circuit. -/
def Circuit.report (k : Circuit) : CircuitReport where
  fn := k.cfg.fn
  kind := k.cfg.kind
  energized := k.energized
  judged := (k.last.bind LastRecord.verdict).isSome
  confirmed := k.filter.confirmed
  m := k.filter.m.getD 0
  attribution := k.filter.attribution
  front := k.filter.front
  mean := (k.last.map LastRecord.im).getD 0
  learn := k.ref.learn

/-- R137: the content of a STATUS formed now. -/
def State.report (s : State) : Report where
  causes := s.activeCauses
  echoed := if s.isHead then some s.source.epoch else s.cmd.lastEpoch
  circuits := eight fun c => s.circuits[c].report

/-- R136: a STATUS formed and queued; the STATUS timer and the holdoff restart and no change waits. -/
def State.queueStatus (s : State) : State :=
  let p := s.report.encode
  State.putSlot { s with tell := { s.tell with statusAt := s.now + 500, holdoffAt := s.now + 100, waiting := false } }
    .status fun sl => { sl with status := some p }

/-- R136: what of a circuit queues a STATUS when it changes (R17, R92, R97). -/
structure CircuitNews where
  confirmed : Option FaultKind
  attribution : Option Attribution
  front : Option Nat
  energized : Bool
  learn : LearnState
  deriving DecidableEq, Repr

/-- R136: what of the station queues a STATUS when it changes (R59, R92). -/
structure News where
  causes : Causes
  circuits : Vector CircuitNews 8
  deriving DecidableEq, Repr

def Circuit.news (k : Circuit) : CircuitNews :=
  ⟨k.filter.confirmed, k.filter.attribution, k.filter.front, k.energized, k.ref.learn⟩

def State.news (s : State) : News := ⟨s.activeCauses, eight fun c => s.circuits[c].news⟩

/-- R136: a change queues a STATUS at once when the holdoff has run out, or when the timer's expiry queued one at this
very moment; otherwise it waits. -/
def State.noteChange (s : State) : State :=
  if s.tell.holdoffAt ≤ s.now || s.tell.expiredAt = some s.now then s.queueStatus
  else { s with tell := { s.tell with waiting := true } }

/-- R136: notes a change between two states, once for a step and after all its other effects (DESIGN CHOICE, log entry
8). A LEARN that starts again circuits already LEARNING changes no learn state and queues no STATUS, though R100 says
that entering LEARNING queues one (DESIGN CHOICE, log entry 36). -/
def announce (before s : State) : State := if s.news = before.news then s else s.noteChange

/-! ## COMMAND -/

/-- R48: the function states of the debounced intents. -/
def intentStates (d : Vector Bool 8) : Vector FnState 8 :=
  eight fun f => if d[f] then (if (LampFn.ofIdx f).isTurn then .flashing else .on) else .off

/-- R49, R137: the content of a COMMAND formed now. -/
def State.commandContent (s : State) : CommandContent where
  epoch := s.source.epoch
  states := intentStates s.intent.debounced
  period := s.source.reported
  crank := s.intent.crank
  fresh := decide (s.count < 2000)
  vs := s.vs.getD 0 / 10

/-- R49: a COMMAND formed and queued; the re-send timer restarts. -/
def State.queueCommand (s : State) : State :=
  let p := s.commandContent.encode
  State.putSlot { s with source := { s.source with resendAt := s.now + 250 } }
    .command fun sl => { sl with command := some p }

/-! ## The arbiter -/

/-- R9 to R12: when the converter is free, the first waiting requester is granted: edge-confirm, spot, scan. A scan
grant lets the spot engine request its next pair. -/
def State.arbitrate (s : State) : State :=
  if s.conv.grant.isSome then s
  else
    match s.conv.confirmQueue with
    | c :: rest => { s with conv := { s.conv with grant := some ⟨.confirm c, s.ticks⟩, confirmQueue := rest } }
    | [] =>
      match s.conv.spotWaiting, s.spot.reading with
      | true, some r =>
        { s with conv := { s.conv with
            grant := some ⟨.spotPair r.circuit, s.ticks⟩, spotWaiting := false, spotSinceScan := true } }
      | _, _ =>
        match s.conv.scanWaiting with
        | some p =>
          { s with conv := { s.conv with
              grant := some ⟨.scanPair p, s.ticks⟩, scanWaiting := none, spotSinceScan := false,
              spotWaiting := s.spot.reading.isSome } }
        | none => s

/-- R9: the operation granted ends, and the converter is granted again. -/
def State.release (s : State) : State := State.arbitrate { s with conv := { s.conv with grant := none } }

/-- R8: how long an operation holds the converter, in eighths of a ms. -/
def Job.length : Job → Nat
  | .confirm _ => 1
  | .spotPair _ => 2
  | .scanPair _ => 2
  | .supply => 1

/-- R8: the granted operation has ended. -/
def State.conversionDone (s : State) : Bool :=
  match s.conv.grant with
  | some g => decide (g.start + g.job.length ≤ s.ticks)
  | none => false

/-- R209, R211: a spot reading starts, replacing any in progress. Its first pair is requested at once, or after the
next scan grant when a spot pair was taken since the last one (R11, DEDUCED, log entry 16). -/
def State.startReading (s : State) (tag : BitVec 4) (c : Circ) : State :=
  State.arbitrate { s with
    spot := { s.spot with reading := some ⟨tag, c, 0, 0, 0⟩ }
    conv := { s.conv with spotWaiting := !s.conv.spotSinceScan } }

/-! ## The clock -/

/-- R48: one read of a line: the count of consecutive reads opposite to the debounced value, held at 30. -/
def readLine (debounced level : Bool) (count : Nat) : Nat := if level = debounced then 0 else satInc 30 count

/-- R48: the head reads its nine lines. -/
def State.readIntents (s : State) : State :=
  if s.isHead then
    { s with intent := { s.intent with
        counts := eight fun f => readLine s.intent.debounced[f] s.pins.intents[f] s.intent.counts[f]
        crankCount := readLine s.intent.crank s.pins.crank s.intent.crankCount } }
  else s

/-- 125 µs of the station's time; the intent lines are read once per millisecond (DESIGN CHOICE, log entry 1). -/
def State.tick (s : State) : State :=
  let s := { s with ticks := s.ticks + 1 }
  if s.ticks % 8 = 0 then s.readIntents else s

end Sys2Proof.Machine
end

