-- ==== Sys2Proof/Machine/Cadence.lean ====
section
/-! DEFINITION. Chapter 2 and the record building of chapter 3 on one circuit: the cadence tracker (R26 to R35), the
window assembler (R40 to R44) and the pending-judgement queue (R45). -/

namespace Sys2Proof.Machine

/-! ## The tracker -/

/-- R31: the effects of unlocking at a moment. -/
def Tracker.unlock (t : Tracker) (now : Ms) : Tracker :=
  { t with
    locked := false, window := [], pbar := none, disagree := 0, miss := 0, compareAt := none
    silenceAt := if t.activity = .active then some (now + 2000) else t.silenceAt }

/-- R30: floor((ΣP + 2) / 4). -/
def meanPeriod (w : List Nat) : Nat := (w.sum + 2) / 4

/-- R30: an UNLOCKED tracker takes a candidate period; four agreeing periods lock it. -/
def Tracker.takeUnlocked (t : Tracker) (p : Nat) : Tracker :=
  let w := t.window ++ [p]
  let w := if w.length = 5 then w.drop 1 else w
  let m := meanPeriod w
  if w.length = 4 && w.all (fun q => absDiff q m * 20 ≤ m) then
    { t with window := w, locked := true, pbar := some m, disagree := 0, miss := 0, silenceAt := none }
  else { t with window := w }

/-- R31: a LOCKED tracker takes a candidate period. A third disagreement unlocks it also where the on-edge came at its
compare time and was taken first, of which R32 says that the tracker stays LOCKED (DESIGN CHOICE, log entry 33). -/
def Tracker.takeLocked (t : Tracker) (p : Nat) (now : Ms) : Tracker :=
  let pb := t.pbar.getD 0
  if absDiff p pb * 10 ≤ pb then
    let w := t.window.drop 1 ++ [p]
    { t with window := w, pbar := some (meanPeriod w), disagree := 0 }
  else if t.disagree + 1 ≥ 3 then t.unlock now
  else { t with disagree := t.disagree + 1 }

/-- R28: the candidate period of an on-edge, by the first case that applies (DEDUCED, log entry 11). A gap of more than
2000 ms unlocks a LOCKED tracker also where the on-edge came at its compare time and was taken first, of which R32 says
that the tracker stays LOCKED (DESIGN CHOICE, log entry 33). -/
def Tracker.candidate (t : Tracker) (edge now : Ms) : Tracker :=
  match t.prevOn with
  | none => t
  | some q =>
    if t.miss > 0 then t
    else if edge - q > 2000 then
      if t.locked then t.unlock now else { t with window := [] }
    else if t.locked then t.takeLocked (edge - q) now
    else t.takeUnlocked (edge - q)

/-- R32: the compare time after an on-edge. -/
def compareTime (edge pbar : Nat) : Ms := edge + pbar + (pbar + 2) / 4

/-- R28: an ACTIVE or LINGERING tracker is handed an on-edge. -/
def Tracker.onEdge (t : Tracker) (edge now : Ms) : Tracker :=
  let t := { t.candidate edge now with prevOn := some edge, phaseStart := some edge, miss := 0 }
  if t.locked then { t with compareAt := some (compareTime edge (t.pbar.getD 0)) }
  else if t.activity = .active then { t with silenceAt := some (edge + 2000) }
  else t

/-- R35, R36: the cadence note of a locked tracker; `reported` is the flash period of a unit's newest ring entry,
none on a head or with an empty ring. -/
def formNote (pbar onTime : Nat) (reported : Option Nat) : Option CadenceNote :=
  let d := (onTime * 100 + pbar / 2) / pbar
  let period := pbar < 500 || pbar > 1250
  let duty := d < 30 || d > 75
  let mismatch := match reported with
    | none => false
    | some p => p != 0 && decide (absDiff pbar p > 40)
  if period || duty || mismatch then some ⟨period, duty, mismatch, pbar, onTime, d⟩ else none

/-- R29, R35: the note an off-edge gives the record it closes. -/
def Tracker.noteAt (t : Tracker) (edge : Ms) (reported : Option Nat) : Option CadenceNote :=
  match t.phaseStart with
  | none => none
  | some p => if t.locked then formNote (t.pbar.getD 0) (edge - p) reported else none

/-- R26, R29, R35: an ACTIVE or LINGERING tracker is handed an off-edge that closes a record (`closed`) or closes none.
The latest note is that of the latest record closed so; an off-edge that closes none leaves it. -/
def Tracker.offEdge (t : Tracker) (edge : Ms) (reported : Option Nat) (closed : Bool) : Tracker :=
  { t with
    lastT := match t.phaseStart with
      | none => t.lastT
      | some p => some (edge - p)
    phaseStart := none
    latestNote := if closed then t.noteAt edge reported else t.latestNote }

/-- R27: activation from DORMANT. -/
def Tracker.activate (lastOn : Option Ms) (energized : Bool) (now : Ms) : Tracker :=
  let recent := match lastOn with
    | none => none
    | some q => if now - q ≤ 2000 then some q else none
  { Tracker.dormant with
    activity := .active
    prevOn := recent
    phaseStart := if energized then recent else none
    silenceAt := some (max now (recent.getD now) + 2000) }

/-- R27: FLASHING ends for an ACTIVE tracker. -/
def Tracker.linger (t : Tracker) (now : Ms) : Tracker :=
  { t with activity := .lingering, lingerAt := some (now + 2000), silenceAt := none }

/-- R27: FLASHING returns to a LINGERING tracker. -/
def Tracker.resume (t : Tracker) (now : Ms) : Tracker :=
  { t with
    activity := .active
    lingerAt := none
    silenceAt := if t.locked then t.silenceAt else some (max now (t.prevOn.getD now) + 2000) }

/-! ## Records -/

/-- R40: a record opened. -/
def Rec.open (kind : RecordKind) (start : Ms) (initial : Bool) : Rec where
  kind := kind
  start := start
  finish := 0
  initial := initial
  edges := 0
  n := 0
  sumI := 0
  sumV := 0
  note := none
  heldOn := false

/-- R44: a missed-flash record. -/
def Rec.missed (start finish : Ms) : Rec := { Rec.open .missedFlash start false with finish := finish }

/-- R41, R42: a steady window runs to the next multiple of 250 ms. -/
def Rec.windowEnd (r : Rec) : Ms := (r.start / 250 + 1) * 250

/-- R19, R20: a settled sample added, unless N is at its maximum. -/
def Rec.add (r : Rec) (vm im : Nat) : Rec :=
  if r.n < 65535 then { r with n := r.n + 1, sumI := r.sumI + im, sumV := r.sumV + vm } else r

/-- R45: a closed record appended, pushing out the oldest of two with a count in the glitch tally. -/
def Circuit.push (k : Circuit) (r : Rec) : Circuit :=
  if k.queue.length < 2 then { k with queue := k.queue ++ [r] }
  else { k with queue := k.queue.drop 1 ++ [r], glitch := satInc 65535 k.glitch }

/-- R41: the record being built closed at a mode change; a record whose start is its end is not made. -/
def Circuit.closeForMode (k : Circuit) (now : Ms) : Circuit :=
  match k.opened with
  | none => k
  | some r =>
    if r.start = now then { k with opened := none }
    else { k.push { r with finish := now } with opened := none }

/-- R41: WINDOW to ON PHASE; the tracker has been activated. -/
def Circuit.toOnPhase (k : Circuit) (now : Ms) : Circuit :=
  let k := k.closeForMode now
  if k.energized then { k with opened := some (Rec.open .onPhase (k.tracker.phaseStart.getD now) true) } else k

/-- R41: ON PHASE to WINDOW. -/
def Circuit.toWindow (k : Circuit) (now : Ms) : Circuit :=
  let k := k.closeForMode now
  { k with opened := some (Rec.open .window now k.energized) }

/-- R27, R41: the function of a tracked circuit becomes FLASHING or leaves it. -/
def Circuit.flashingChange (k : Circuit) (flashing : Bool) (now : Ms) : Circuit :=
  if k.cfg.tracks then
    match k.tracker.activity, flashing with
    | .dormant, true => Circuit.toOnPhase { k with tracker := .activate k.lastOn k.energized now } now
    | .lingering, true => { k with tracker := k.tracker.resume now }
    | .active, false => { k with tracker := k.tracker.linger now }
    | .dormant, false => k
    | .lingering, false => k
    | .active, true => k
  else k

/-- R41 to R43: an edge handed to the window assembler, dated by its stamp (DEDUCED, log entry 20). In WINDOW mode it is
counted; in ON PHASE mode an on-edge opens a record and an off-edge closes one, or unmakes one whose start is its end
(R41). Answers whether it closed one. -/
def Circuit.assembleEdge (k : Circuit) (edge : Ms) (rising : Bool) : Circuit × Bool :=
  if k.tracker.onPhaseMode then
    match k.opened, rising with
    | none, true => ({ k with opened := some (Rec.open .onPhase edge true) }, false)
    | none, false => (k, false)
    | some r, true => ({ k with opened := some { r with edges := satInc 255 r.edges } }, false)
    | some r, false =>
      if r.start = edge then ({ k with opened := none }, false)
      else ({ k.push { r with edges := satInc 255 r.edges, finish := edge } with opened := none }, true)
  else
    match k.opened with
    | none => (k, false)
    | some r => ({ k with opened := some { r with edges := satInc 255 r.edges } }, false)

/-- R29: the note written into the record just closed, the last of the queue. -/
def writeNote (q : List Rec) (note : Option CadenceNote) : List Rec :=
  match q.getLast? with
  | none => q
  | some r => q.dropLast ++ [{ r with note := note }]

/-- R17, R28, R29: an edge taken: energized state, last on-edge, window assembler, then cadence tracker. -/
def Circuit.takeEdge (k : Circuit) (edge : Ms) (rising : Bool) (reported : Option Nat) (now : Ms) : Circuit :=
  let k := { k with energized := rising, lastOn := if rising then some edge else k.lastOn, pendingSample := none }
  let (k, closed) := k.assembleEdge edge rising
  if k.tracker.activity = .dormant then k
  else if rising then { k with tracker := k.tracker.onEdge edge now }
  else
    { k with
      queue := if closed then writeNote k.queue (k.tracker.noteAt edge reported) else k.queue
      tracker := k.tracker.offEdge edge reported closed }

/-- R32, R33: a LOCKED tracker's compare time is reached. The third missed flash unlocks it also where an on-edge of the
same millisecond is taken after it, of which R32 says that the tracker stays LOCKED (DESIGN CHOICE, log entry 33). -/
def Circuit.missFlash (k : Circuit) (at_ now : Ms) : Circuit :=
  let t := k.tracker
  if t.miss + 1 ≥ 3 then { k with tracker := { t.unlock now with prevOn := none } }
  else
    let k' := { k with tracker := { t with miss := t.miss + 1, compareAt := some (at_ + t.pbar.getD 0) } }
    if t.miss + 1 = 2 && t.activity = .active && !k.energized then k'.push (Rec.missed (t.prevOn.getD 0) at_) else k'

/-- R34: an UNLOCKED, ACTIVE tracker's silence deadline is reached. -/
def Circuit.silence (k : Circuit) (at_ : Ms) : Circuit :=
  let k' := { k with tracker := { k.tracker with silenceAt := some (at_ + 2000) } }
  if k.energized then k' else k'.push (Rec.missed (at_ - 2000) at_)

/-- R27, R41: the linger end is reached. -/
def Circuit.fallDormant (k : Circuit) (now : Ms) : Circuit := Circuit.toWindow { k with tracker := .dormant } now

/-- R42: a steady window closes and the next opens, with the energized state of this moment as its initial state. R42
says that an edge taken after the close in the same millisecond also decides that state, and that the state is read when
the window opens: such an edge is counted in the new window and leaves its initial state as read (DESIGN CHOICE, log
entry 35). -/
def Circuit.closeWindow (k : Circuit) (r : Rec) : Circuit :=
  { k.push { r with finish := r.windowEnd } with opened := some (Rec.open .window r.windowEnd k.energized) }

/-- R43: an ON-phase record open for 2000 ms closes HELD ON, and another opens. -/
def Circuit.closeHeldOn (k : Circuit) (r : Rec) : Circuit :=
  { k.push { r with finish := r.start + 2000, heldOn := true } with
    opened := some (Rec.open .onPhase (r.start + 2000) true) }

/-! ## The ring, the epoch and the reported period -/

/-- R52: an entry added at the newest end of eight. -/
def ringAdd (ring : List RingEntry) (e : RingEntry) : List RingEntry :=
  if ring.length < 8 then ring ++ [e] else ring.drop 1 ++ [e]

/-- R27, R41, R52: an entry added; each circuit whose function starts or stops FLASHING is told. -/
def State.addRing (s : State) (e : RingEntry) : State :=
  { s with
    ring := ringAdd s.ring e
    circuits := eight fun c =>
      let k := s.circuits[c]
      let was := currentState s.ring k.cfg.fn == some .flashing
      let is := e.states[k.cfg.fn.idx] == .flashing
      if was = is then k else k.flashingChange is s.now }

/-- R49: the epoch rises by 1, the intent is entered in the ring and a COMMAND is queued. -/
def State.epochChange (s : State) : State :=
  let s := { s with source := { s.source with epoch := s.source.epoch + 1 } }
  State.queueCommand (s.addRing
    ⟨s.source.epoch, intentStates s.intent.debounced, s.source.reported, s.intent.crank, s.now⟩)

/-- R37: a function's balance feed if its tracker is LOCKED. -/
def State.lockedFeed (s : State) (f : LampFn) : Option Circ :=
  (s.balanceFeed f).filter fun c => s.circuits[c].tracker.locked

/-- R37: the balance feed whose tracker gives the reported period: LEFT TURN's, else RIGHT TURN's, else none. -/
def State.periodSource (s : State) : Option Circ :=
  match s.lockedFeed .leftTurn with
  | some c => some c
  | none => s.lockedFeed .rightTurn

/-- R37: the reported period re-evaluated after a tracker changed; `before` is the state before that change. -/
def reevaluatePeriod (before s : State) : State :=
  if s.isHead then
    match s.periodSource with
    | none =>
      if s.source.reported = 0 then { s with source := { s.source with lastSource := none } }
      else State.epochChange { s with source := { s.source with lastSource := none, reported := 0 } }
    | some c =>
      let pb := s.circuits[c].tracker.pbar.getD 0
      if !before.circuits[c].tracker.locked || s.source.lastSource != some c || decide (absDiff pb s.source.reported > 20) then
        if pb = s.source.reported then { s with source := { s.source with lastSource := some c } }
        else State.epochChange { s with source := { s.source with lastSource := some c, reported := pb } }
      else s
  else s

/-- R36: the flash period a unit checks against; none on the head and with an empty ring. -/
def State.noteReference (s : State) : Option Nat :=
  if s.isHead then none else s.ring.getLast?.map RingEntry.period

end Sys2Proof.Machine
end

