-- ==== Sys2Proof/Machine/Filters.lean ====
section
/-! DEFINITION. Confirmation filters: how a filter takes an applied verdict or balance record (R84 to R88), and the
outcomes it hands on (R90). -/

namespace Sys2Proof.Machine

/-- What an applied verdict or balance record shows a filter; kind none is clean. -/
structure Evidence where
  kind : Option FaultKind
  m : Option Nat
  attribution : Option Attribution
  front : Option Nat
  sign : Option Sign
  deriving DecidableEq, Repr

/-- R90: an outcome as it is handed on; REPLACED is `cleared` followed by `confirmed` (DEDUCED, log entry 32). -/
inductive FilterOutcome where
  | confirmed (k : FaultKind)
  | cleared (k : FaultKind)
  | detailsChanged (k : FaultKind)
  | refreshed (k : FaultKind)
  deriving DecidableEq, Repr

/-- R86, R88: kind k stands confirmed with the details of this evidence; the front rank only with COUPLING. -/
def Filter.hold (f : Filter) (k : FaultKind) (e : Evidence) : Filter where
  candidate := none
  confirm := 0
  confirmed := some k
  clear := 0
  m := e.m
  n := f.n
  attribution := e.attribution
  front := if e.attribution = some .coupling then e.front else none
  sign := e.sign

/-- R85: the fifth clean verdict in a row clears. -/
def Filter.release (f : Filter) : Filter := .start f.n

/-- R85: a clean applied verdict. -/
def Filter.takeClean (f : Filter) : Filter × List FilterOutcome :=
  match f.confirmed with
  | none => ({ f with candidate := none, confirm := 0 }, [])
  | some k =>
    if 5 ≤ f.clear + 1 then (f.release, [.cleared k])
    else ({ f with candidate := none, confirm := 0, clear := f.clear + 1 }, [])

/-- R86: a verdict of the confirmed kind. -/
def Filter.refresh (f : Filter) (k : FaultKind) (e : Evidence) : Filter × List FilterOutcome :=
  let g := f.hold k e
  (g, if g.m = f.m ∧ g.attribution = f.attribution ∧ g.front = f.front ∧ g.sign = f.sign then [.refreshed k]
    else [.detailsChanged k])

/-- R87, R88: a verdict of a kind that is not confirmed. -/
def Filter.test (f : Filter) (k : FaultKind) (e : Evidence) : Filter × List FilterOutcome :=
  let clear := if f.confirmed.isSome then 0 else f.clear
  if f.candidate = some k then
    if 3 ≤ f.confirm + 1 then
      (f.hold k e, match f.confirmed with
        | none => [.confirmed k]
        | some old => [.cleared old, .confirmed k])
    else ({ f with confirm := f.confirm + 1, clear := clear }, [])
  else ({ f with candidate := some k, confirm := 1, clear := clear }, [])

/-- R85 to R88: an applied verdict taken. -/
def Filter.take (f : Filter) (e : Evidence) : Filter × List FilterOutcome :=
  match e.kind with
  | none => f.takeClean
  | some k => if f.confirmed = some k then f.refresh k e else f.test k e

end Sys2Proof.Machine
end

