-- ==== Sys2Proof/Machine/FaultList.lean ====
section
/-! DEFINITION. The head's fault list and warning driver (chapter 10): confirmations, clears and changes of detail
(R181 to R183), extents (R193), WARN (R195), acknowledgement (R194), and the inputs of R180. -/

namespace Sys2Proof.Machine

/-! ## Entries -/

/-- R182: an entry that a clear acts on. -/
def EntryState.stands : EntryState → Bool
  | .active | .orphaned => true
  | .cleared => false

def FaultList.indexOf (l : FaultList) (k : Key) : Option Nat := l.entries.findIdx? (·.key == k)

def FaultList.entryOf (l : FaultList) (k : Key) : Option Entry := l.entries.find? (·.key == k)

/-- The entries of a list changed in place. -/
def State.mapEntries (s : State) (g : Entry → Entry) : State :=
  { s with faults := { s.faults with entries := s.faults.entries.map g } }

/-- The entry of a key changed in place. -/
def State.mapEntry (s : State) (k : Key) (g : Entry → Entry) : State :=
  s.mapEntries fun e => if e.key = k then g e else e

/-- Details of a kind that has none. -/
def Details.empty : Details := ⟨0, none, none, 0, none⟩

/-- R179: rank at confirmation and current rank for a key; `claim` is the rank that UNIT SILENT and RANK CLASH name. -/
def State.ranksFor (s : State) (k : Key) (claim : Option Rank) : Option Rank × Option Rank :=
  if k.kind = .rankClash then (claim, none)
  else if k.serial = s.cfg.serial then (some 0, some 0)
  else if k.kind = .unitSilent then (claim, none)
  else (s.roster.slotOf k.serial, s.roster.slotOf k.serial)

/-- R178: an entry as it is made. -/
def State.newEntry (s : State) (k : Key) (d : Details) (claim : Option Rank) : Entry where
  key := k
  severity := severityOf k.kind k.fn
  state := .active
  acked := false
  occurrences := 1
  first := s.trainSeconds
  rankConf := (s.ranksFor k claim).1
  rankCur := (s.ranksFor k claim).2
  details := d
  extent := 0

/-- R183: the list without its oldest CLEARED entry, or none. -/
def evict (es : List Entry) : Option (List Entry) :=
  if es.any (·.state == .cleared) then some (es.eraseP (·.state == .cleared)) else none

/-- R183: an entry appended, with its FAULT CONFIRMED. -/
def State.append (s : State) (es : List Entry) (e : Entry) : State :=
  State.raise { s with faults := { s.faults with entries := es ++ [e] } } (.faultConfirmed es.length e.key.serial)

/-- R183: a new entry finds room, evicts, or is dropped. -/
def State.makeEntry (s : State) (e : Entry) : State :=
  if s.faults.entries.length < 32 then s.append s.faults.entries e
  else
    match evict s.faults.entries with
    | some es => s.append es e
    | none =>
      { s with
        faults := { s.faults with overflow := satInc 255 s.faults.overflow }
        flags := { s.flags with listOverflow := true } }

/-- R181: a CLEARED entry reactivated. -/
def Entry.reactivate (e : Entry) (d : Details) (ranks : Option Rank × Option Rank) : Entry :=
  { e with
    state := .active, acked := false, occurrences := satInc 255 e.occurrences, rankConf := ranks.1, rankCur := ranks.2
    details := d }

/-- R181: a confirmation of key k. -/
def State.confirm (s : State) (k : Key) (d : Details) (claim : Option Rank) : State :=
  match s.faults.entryOf k with
  | none => s.makeEntry (s.newEntry k d claim)
  | some e =>
    match e.state with
    | .active => s.mapEntry k fun e => { e with details := d }
    | .orphaned => s.mapEntry k fun e => { e with state := .active, details := d }
    | .cleared =>
      State.raise (s.mapEntry k fun e => e.reactivate d (s.ranksFor k claim))
        (.faultConfirmed ((s.faults.indexOf k).getD 0) k.serial)

/-- R194: the entries that are CLEARED and acknowledged leave the list. -/
def State.sweep (s : State) (k : Key) : State :=
  let es := s.faults.entries.filter fun e => !(e.key == k && e.state == .cleared && e.acked)
  { s with faults := { s.faults with entries := es } }

/-- R182: a clear of key k. The event carries the index the entry held. -/
def State.clear (s : State) (k : Key) : State :=
  match s.faults.entryOf k with
  | none => s
  | some e =>
    if e.state.stands then
      State.sweep
        (State.raise (s.mapEntry k fun e => { e with state := .cleared, extent := 0 })
          (.faultCleared ((s.faults.indexOf k).getD 0) k.serial)) k
    else s

/-- R182: a change of detail for key k. -/
def State.detail (s : State) (k : Key) (g : Details → Details) : State :=
  s.mapEntry k fun e => if e.state.stands then { e with details := g e.details } else e

/-! ## Extents (R193) -/

/-- R187: a circuit of F with NO SUPPLY confirmed. -/
def CircuitReport.lost (c : CircuitReport) (f : LampFn) : Bool := c.fn == f && c.confirmed == some .noSupply

/-- R193: a report that is shadowed for F. -/
def Report.shadowed (r : Report) (f : LampFn) : Bool :=
  allCirc.any (fun c => r.circuits[c].lost f) &&
    allCirc.all fun c => !r.circuits[c].lost f || r.circuits[c].attribution == some .shadowed

/-- R193: the rank at which an entry is an anchor for F. -/
def Entry.anchor (e : Entry) (f : LampFn) : Option Rank :=
  if e.key.kind = .noSupply ∧ e.key.fn = some f ∧ e.state = .active ∧
      (e.details.attribution = some .coupling ∨ e.details.attribution = some .unattributed ∨
        e.details.attribution = some .tractor)
  then e.rankCur else none

/-- R193: the anchor for F with the greatest rank below x. -/
def FaultList.anchorBelow (l : FaultList) (f : LampFn) (x : Rank) : Option Rank :=
  ((allCirc.filter fun a => decide (a < x)).reverse).find? fun a => l.entries.any fun e => e.anchor f == some a

/-- R193: the ranked entries counted into the anchor for F at rank a. -/
def State.shadowsBehind (s : State) (f : LampFn) (a : Rank) : Nat :=
  (allCirc.filter fun x =>
    (match s.roster.slots[x] with
      | none => false
      | some e => e.report.shadowed f) && s.faults.anchorBelow f x == some a).length

/-- R193: the extent of one entry. -/
def State.extentOf (s : State) (e : Entry) : Nat :=
  match e.key.fn with
  | none => 0
  | some f =>
    match e.anchor f with
    | none => 0
    | some a => min 6 (s.shadowsBehind f a)

/-- R193: every extent recomputed. -/
def State.extents (s : State) : State := s.mapEntries fun e => { e with extent := s.extentOf e }

/-! ## WARN (R195) -/

/-- R195: the WARN state the list calls for. -/
def FaultList.warnState (l : FaultList) : WarnState :=
  if l.entries.any fun e => e.severity == .critical && !e.acked && e.state.stands then .blink
  else if l.entries.any fun e => (e.severity == .critical || e.severity == .major) && e.state.stands then .steady
  else .off

/-- R195: the driver entering a WARN state; BLINK begins with its high half. -/
def Warn.enter (w : WarnState) (now : Ms) : Warn :=
  match w with
  | .off => ⟨.off, false, none⟩
  | .steady => ⟨.steady, true, none⟩
  | .blink => ⟨.blink, true, some (now + 500)⟩

/-- R195: WARN derived again; a state that stays keeps its pattern. -/
def State.deriveWarn (s : State) : State :=
  if s.faults.warnState = s.warn.state then s else { s with warn := .enter s.faults.warnState s.now }

/-- R180: what follows the changes of each input: extents, then WARN. -/
def State.settleList (s : State) : State := s.extents.deriveWarn

/-! ## Acknowledgement (R194) -/

/-- R194: what an acknowledgement leaves of an entry. -/
def Entry.acknowledge (e : Entry) : Option Entry :=
  match e.state with
  | .active => some { e with acked := true }
  | .cleared => none
  | .orphaned => none

/-- R194: the entry at index i acknowledged. -/
def State.ackAt (s : State) (i : Nat) : State :=
  let es := s.faults.entries
  let es := es.take i ++ ((es.drop i).take 1).filterMap Entry.acknowledge ++ es.drop (i + 1)
  State.deriveWarn { s with faults := { s.faults with entries := es } }

/-- R194, R204: every entry acknowledged, newest first. -/
def State.ackEvery (s : State) : State :=
  (List.range s.faults.entries.length).reverse.foldl State.ackAt s

/-! ## The head's own sources (R184, R185) -/

/-- R177: the key of a kind on a circuit or function of a station. -/
def circuitKey (n : Serial) (k : FaultKind) (c : Circ) (f : LampFn) : Key :=
  if k = .noSupply then ⟨n, k, none, some f⟩ else ⟨n, k, some c, some f⟩

def leakageKey (n : Serial) (f : LampFn) : Key := ⟨n, .leakage, none, some f⟩

/-- R177: UNIT SILENT, RANK CLASH, HEAD CLASH. -/
def stationKey (n : Serial) (k : FaultKind) : Key := ⟨n, k, none, none⟩

/-- The mask bit of a circuit. -/
def circBit (c : Circ) : Byte := 1#8 <<< c.val

/-- R184: a CONFIRMED of the head's circuit c. -/
def State.headConfirmed (s : State) (c : Circ) (k : FaultKind) : State :=
  let key := circuitKey s.cfg.serial k c s.circuits[c].cfg.fn
  if k = .noSupply then
    if (s.faults.entryOf key).map Entry.state = some .active then
      s.detail key fun d => { d with mask := d.mask ||| circBit c }
    else s.confirm key { Details.empty with attribution := some .tractor, mask := circBit c } none
  else s.confirm key .empty none

/-- R184: a CLEARED of the head's circuit c. -/
def State.headCleared (s : State) (c : Circ) (k : FaultKind) : State :=
  let key := circuitKey s.cfg.serial k c s.circuits[c].cfg.fn
  if k = .noSupply then
    let s := s.detail key fun d => { d with mask := d.mask &&& ~~~circBit c }
    if ((s.faults.entryOf key).map fun e => e.details.mask == 0) = some true then s.clear key else s
  else s.clear key

/-- R184: an outcome of the head's filter of circuit c, taken as one input. -/
def State.headOutcome (c : Circ) (s : State) (o : FilterOutcome) : State :=
  State.settleList <|
    match o with
    | .confirmed k => s.headConfirmed c k
    | .cleared k => s.headCleared c k
    | .detailsChanged _ => s
    | .refreshed _ => s

/-- R185: an outcome of the balance filter of function F, which now holds `sign`, taken as one input. -/
def State.balanceOutcome (f : LampFn) (sign : Option Sign) (s : State) (o : FilterOutcome) : State :=
  let key := leakageKey s.cfg.serial f
  State.settleList <|
    match o with
    | .confirmed _ => s.confirm key { Details.empty with sign := sign } none
    | .cleared _ => s.clear key
    | .detailsChanged _ => s.detail key fun d => { d with sign := sign }
    | .refreshed _ => s

/-- R185: a beginning or an end of HEAD CLASH on the head, taken as one input. -/
def State.headClashInput (s : State) (begins : Bool) : State :=
  let key := stationKey s.cfg.serial .headClash
  State.settleList (if begins then s.confirm key .empty none else s.clear key)

/-- R192: a beginning or an end of a rank clash for serial n, taken as one input. -/
def State.rankClashInput (s : State) (n : Serial) (begins : Bool) (claim : Option Rank) : State :=
  let key := stationKey n .rankClash
  State.settleList (if begins then s.confirm key .empty claim else s.clear key)

/-! ## Reading a unit's STATUS (R186 to R190) -/

/-- R186: the circuit-keyed kind a report shows; NO SUPPLY counts as none here. -/
def CircuitReport.circuitKind (c : CircuitReport) : Option FaultKind :=
  match c.confirmed with
  | some .noSupply => none
  | k => k

/-- R186: the key and kind of circuit c of a report that may be none. -/
def reportKey (n : Serial) (r : Option Report) (c : Circ) : Option (Key × FaultKind) :=
  match r with
  | none => none
  | some r => r.circuits[c].circuitKind.map fun k => (circuitKey n k c r.circuits[c].fn, k)

/-- R178: the details of a circuit-keyed kind. -/
def circuitDetails (k : FaultKind) (m : Nat) : Details :=
  if k = .lampPartial then { Details.empty with m := m } else .empty

/-- R187: a loss state. -/
inductive Loss where
  | none
  | shadowed
  | entered (attribution : Option Attribution) (front : Option Nat)
  deriving DecidableEq, Repr

/-- R187: the loss state of function F in a report. -/
def Report.loss (r : Report) (f : LampFn) : Loss :=
  if allCirc.any fun c => r.circuits[c].lost f then
    match allCirc.find? fun c => r.circuits[c].lost f && r.circuits[c].attribution != some .shadowed with
    | none => .shadowed
    | some c => .entered r.circuits[c].attribution r.circuits[c].front
  else .none

/-- R187: the loss state of a report that may be none. -/
def lossOf (r : Option Report) (f : LampFn) : Loss :=
  match r with
  | none => .none
  | some r => r.loss f

/-- R187: the circuit mask of F. -/
def Report.lossMask (r : Report) (f : LampFn) : Byte :=
  byteOfBits (r.circuits[0].lost f) (r.circuits[1].lost f) (r.circuits[2].lost f) (r.circuits[3].lost f)
    (r.circuits[4].lost f) (r.circuits[5].lost f) (r.circuits[6].lost f) (r.circuits[7].lost f)

/-- R186, R188: the first pass for circuit c. -/
def clearCircuit (n : Serial) (prev : Option Report) (now : Report) (s : State) (c : Circ) : State :=
  match reportKey n prev c with
  | none => s
  | some (key, _) => if (reportKey n (some now) c).map Prod.fst = some key then s else s.clear key

/-- R187, R188: the first pass for function F; a loss that became SHADOWED is re-attributed
(DEDUCED, log entry 24). -/
def clearLoss (n : Serial) (prev : Option Report) (now : Report) (s : State) (i : Circ) : State :=
  let f := LampFn.ofIdx i
  let key := circuitKey n .noSupply 0 f
  match lossOf prev f, now.loss f with
  | .entered _ _, .none => s.clear key
  | .entered _ _, .shadowed =>
    (s.clear key).mapEntry key fun e =>
      { e with details := { e.details with attribution := some .shadowed, front := none } }
  | .entered _ _, .entered _ _ => s
  | .none, _ => s
  | .shadowed, _ => s

/-- R186, R188: the second pass for circuit c. -/
def confirmCircuit (n : Serial) (prev : Option Report) (now : Report) (s : State) (c : Circ) : State :=
  match reportKey n (some now) c with
  | none => s
  | some (key, k) =>
    if (reportKey n prev c).map Prod.fst = some key then
      s.detail key fun d => if k = .lampPartial then { d with m := now.circuits[c].m } else d
    else s.confirm key (circuitDetails k now.circuits[c].m) none

/-- R187, R188: the second pass for function F. -/
def confirmLoss (n : Serial) (prev : Option Report) (now : Report) (s : State) (i : Circ) : State :=
  let f := LampFn.ofIdx i
  let key := circuitKey n .noSupply 0 f
  match now.loss f with
  | .none => s
  | .shadowed => s
  | .entered a r =>
    let d : Details := { Details.empty with attribution := a, front := r, mask := now.lossMask f }
    match lossOf prev f with
    | .entered _ _ => s.detail key fun _ => d
    | .none => s.confirm key d none
    | .shadowed => s.confirm key d none

/-- R188: the two passes that one STATUS gives rise to. -/
def State.comparePasses (s : State) (n : Serial) (prev : Option Report) (now : Report) : State :=
  let s := allCirc.foldl (clearCircuit n prev now) s
  let s := allCirc.foldl (clearLoss n prev now) s
  let s := allCirc.foldl (confirmCircuit n prev now) s
  allCirc.foldl (confirmLoss n prev now) s

/-- R179: the current rank of every entry of a serial. -/
def State.setRanks (s : State) (n : Serial) (r : Option Rank) : State :=
  s.mapEntries fun e => if e.key.serial = n then { e with rankCur := r } else e

/-- R189: the keys a first STATUS confirms. -/
def Report.keys (r : Report) (n : Serial) : List Key :=
  (allCirc.filterMap fun c => (reportKey n (some r) c).map Prod.fst) ++
    allCirc.filterMap fun i =>
      match r.loss (.ofIdx i) with
      | .entered _ _ => some (circuitKey n .noSupply 0 (.ofIdx i))
      | .none => none
      | .shadowed => none

/-- R189, step 5: the entries of a serial that its first STATUS did not confirm, in index order. -/
def FaultList.unresolved (l : FaultList) (n : Serial) (confirmed : List Key) : List Key :=
  (l.entries.filter fun e => e.key.serial == n && e.state.stands && e.key.kind != .unitSilent &&
    e.key.kind != .rankClash && !confirmed.contains e.key).map Entry.key

/-- R189: a STATUS with outcome NEW. -/
def State.joinStation (s : State) (n : Serial) (now : Report) : State :=
  let s := s.raise (.stationJoined n)
  let s := if (s.faults.entryOf (stationKey n .unitSilent)).map Entry.state = some .active then
    s.clear (stationKey n .unitSilent) else s
  let s := s.setRanks n (s.roster.slotOf n)
  let s := s.comparePasses n none now
  (s.faults.unresolved n (now.keys n)).foldl State.clear s

/-- R190: a STATUS with outcome REFRESHED or MOVED. -/
def State.hearStation (s : State) (n : Serial) (prev : Option Report) (now : Report) : State :=
  (s.setRanks n (s.roster.slotOf n)).comparePasses n prev now

/-! ## Stations lost (R191) -/

/-- R191, step 4: an entry of a lost station orphaned. -/
def State.orphan (s : State) (k : Key) : State :=
  State.raise (s.mapEntry k fun e => { e with state := .orphaned, acked := false, extent := 0 })
    (.faultOrphaned ((s.faults.indexOf k).getD 0) k.serial)

/-- R191: the expiry of the ranked entry of serial n, which held rank r, taken as one input. -/
def State.loseStation (s : State) (n : Serial) (r : Rank) : State :=
  let s := s.raise (.stationLost n)
  let s := s.setRanks n none
  let s := s.confirm (stationKey n .unitSilent) .empty (some r)
  let keys := (s.faults.entries.filter fun e =>
    e.key.serial == n && e.state == .active && e.key.kind != .unitSilent).map Entry.key
  State.settleList (keys.foldl State.orphan s)

end Sys2Proof.Machine
end

