-- ==== Sys2Proof/Machine/Train.lean ====
section
/-! DEFINITION. The roster (R147 to R156) and the head's readers of it: balance checker (R172), RANK CHANGED (R157)
and the learn tracker (R208). -/

namespace Sys2Proof.Machine

/-! ## Placement -/

/-- R149: the rank a STATUS claims, none for an unranked claim. -/
def claimOf (h : RxHeader) : Option Rank :=
  if h.unranked then none
  else if h.head then (if h.rank = 0 then some 0 else none)
  else if h.rank = 0 then none
  else some ⟨h.rank.toNat, h.rank.isLt⟩

/-- R150: where a STATUS goes; in the unplaced list with its CLASH flag. -/
inductive Destination where
  | slot (r : Rank)
  | unplaced (clash : Bool)
  deriving DecidableEq, Repr

/-- R156: a placement outcome; in `moved` a place of none is the unplaced list. -/
inductive Placement where
  | new
  | refreshed
  | moved (src dst : Option Rank)
  | notTaken
  deriving DecidableEq, Repr

/-- R150: the first row that applies. -/
def State.destination (s : State) (h : RxHeader) : Destination :=
  if h.serial = s.cfg.serial then .unplaced true
  else
    match claimOf h with
    | none => .unplaced false
    | some r =>
      if s.slotClosed r then .unplaced true
      else
        match s.roster.slots[r] with
        | none => .slot r
        | some e => if e.serial = h.serial then .slot r else .unplaced true

/-- The entry a STATUS makes (R148). -/
def State.entryFrom (s : State) (h : RxHeader) (rep : Report) (clash : Bool) : RosterEntry :=
  ⟨h.serial, claimOf h, h.head, clash, s.now, false, rep⟩

/-- Whether the unplaced list holds serial n. -/
def Roster.lists (r : Roster) (n : Serial) : Bool := r.unplaced.any (·.serial == n)

/-- Every ranked slot but `keep` without serial n. -/
def Roster.slotsWithout (r : Roster) (n : Serial) : Vector (Option RosterEntry) 8 :=
  eight fun i => if (r.slots[i].map RosterEntry.serial) = some n then none else r.slots[i]

/-- R150: a STATUS taken into slot r. -/
def Roster.intoSlot (x : Roster) (r : Rank) (e : RosterEntry) : Roster × Placement :=
  (⟨put (x.slotsWithout e.serial) r (some e), x.unplaced.filter (·.serial != e.serial)⟩,
    match x.slotOf e.serial with
    | some q => if q = r then .refreshed else .moved (some q) (some r)
    | none => if x.lists e.serial then .moved none (some r) else .new)

/-- R150: a STATUS whose destination is the unplaced list. -/
def Roster.intoList (x : Roster) (e : RosterEntry) : Roster × Placement :=
  if x.lists e.serial then
    ({ x with unplaced := x.unplaced.map fun o => if o.serial = e.serial then e else o }, .refreshed)
  else if x.unplaced.length < 4 then
    (⟨x.slotsWithout e.serial, x.unplaced ++ [e]⟩,
      match x.slotOf e.serial with
      | some q => .moved (some q) none
      | none => .new)
  else (x, .notTaken)

/-- R150: a delivered STATUS placed. -/
def State.place (s : State) (h : RxHeader) (rep : Report) : Roster × Placement :=
  match s.destination h with
  | .slot r => s.roster.intoSlot r (s.entryFrom h rep false)
  | .unplaced clash => s.roster.intoList (s.entryFrom h rep clash)

/-- R154: whether a rank clash exists for serial n. -/
def Roster.clashing (r : Roster) (n : Serial) : Bool := r.unplaced.any fun e => e.serial == n && e.clash

/-! ## Learn tracker (R208) -/

/-- R208: a masked circuit of a STATUS that is LEARNING. -/
def learningShown (mask : Byte) (r : Report) : Bool :=
  allCirc.any fun c => mask.getLsbD c.val && r.circuits[c].kind.isLamp && r.circuits[c].learn == .learning

/-- R208: a station no longer tracked, with its LEARN DONE. -/
def State.untrack (s : State) (n : Serial) (status : LearnDone) : State :=
  State.raise { s with learner := { s.learner with tracked := s.learner.tracked.filter (·.serial != n) } }
    (.learnDone n status)

/-- R208: a STATUS read by the learn tracker. -/
def State.trackLearning (s : State) (n : Serial) (rep : Report) : State :=
  match s.learner.tracked.find? (·.serial == n) with
  | none => s
  | some t =>
    match t.started, learningShown s.learner.mask rep with
    | false, true =>
      let ts := s.learner.tracked.map fun u => if u.serial = n then { u with started := true } else u
      { s with learner := { s.learner with tracked := ts } }
    | true, false => s.untrack n .done
    | false, false => s
    | true, true => s

/-- R208: the expiry of a tracked serial's roster entry. -/
def State.trackExpiry (s : State) (n : Serial) : State :=
  if s.learner.tracked.any (·.serial == n) then s.untrack n .lost else s

/-! ## A STATUS on the head (R123, R156) -/

/-- R189, R190: a STATUS as an input of the fault list; a sender of the head's own serial is not compared (R186). -/
def State.statusInput (s : State) (n : Serial) (prev : Option Report) (rep : Report) (out : Placement) : State :=
  if n = s.cfg.serial then s.settleList
  else
    State.settleList <|
      match out with
      | .new => s.joinStation n rep
      | .refreshed => s.hearStation n prev rep
      | .moved _ _ => s.hearStation n prev rep
      | .notTaken => s

/-- R154, R192: the beginning or end of serial n's rank clash between two rosters, as an input of the fault list. -/
def State.clashChange (s : State) (before : Roster) (n : Serial) (claim : Option Rank) : State :=
  match before.clashing n, s.roster.clashing n with
  | false, true => s.rankClashInput n true claim
  | true, false => s.rankClashInput n false claim
  | false, false => s
  | true, true => s

/-- R180, R196: the fault list takes a STATUS and the clash change it brought, in an order that the spec leaves open
(DESIGN CHOICE, log entry 10). -/
def State.listStatus (s : State) (before : Roster) (h : RxHeader) (prev : Option Report) (rep : Report)
    (out : Placement) : State :=
  if before.clashing h.serial = s.roster.clashing h.serial then s.statusInput h.serial prev rep out
  else
    let first := Config.clashFirst s.free
    let s := { s with free := s.free + 1 }
    if first then (s.clashChange before h.serial (claimOf h)).statusInput h.serial prev rep out
    else (s.statusInput h.serial prev rep out).clashChange before h.serial (claimOf h)

/-- R172: a STATUS that was not taken sets the unlisted deadline. -/
def State.noteUnlisted (s : State) (out : Placement) : State :=
  match out with
  | .notTaken => { s with balance := { s.balance with unlistedAt := some (s.now + 1500) } }
  | .new => s
  | .refreshed => s
  | .moved _ _ => s

/-- R157: a move between ranked slots. -/
def State.raiseRankChanged (s : State) (n : Serial) (out : Placement) : State :=
  match out with
  | .moved (some _) (some _) => s.raise (.rankChanged n)
  | .moved _ _ => s
  | .new => s
  | .refreshed => s
  | .notTaken => s

/-- R208: only a STATUS that was taken is read. -/
def State.learnStatus (s : State) (n : Serial) (rep : Report) (out : Placement) : State :=
  match out with
  | .notTaken => s
  | .new => s.trackLearning n rep
  | .refreshed => s.trackLearning n rep
  | .moved _ _ => s.trackLearning n rep

/-- R150, R151: the roster after a delivered STATUS, with ROSTER FULL. -/
def State.rosterStatus (s : State) (h : RxHeader) (rep : Report) : State :=
  { s with
    roster := (s.place h rep).1
    flags := if (s.place h rep).2 = .notTaken then { s.flags with rosterFull := true } else s.flags }

/-- R123, R156: a delivered STATUS: roster; then, on the head, fault list, balance checker, event queue and learn
tracker. The previous report is none for NEW and for NOT TAKEN, which the fault list does not compare (R180). -/
def State.takeStatus (s : State) (h : RxHeader) (rep : Report) : State :=
  let out := (s.place h rep).2
  let prev := if out = .new then none else (s.roster.entryOf h.serial).map RosterEntry.report
  let s' := s.rosterStatus h rep
  if s.isHead then
    (((s'.listStatus s.roster h prev rep out).noteUnlisted out).raiseRankChanged h.serial out).learnStatus
      h.serial rep out
  else s'

/-! ## Expiry (R152) -/

/-- R152: the entry of slot r expires. -/
def State.expireSlot (s : State) (r : Rank) (e : RosterEntry) : State :=
  let s' := { s with roster := { s.roster with slots := put s.roster.slots r none } }
  if s.isHead then (s'.loseStation e.serial r).trackExpiry e.serial else s'

/-- R152, R154: the entry at unplaced position i expires; a clash of its serial ends. -/
def State.expireUnplaced (s : State) (i : Nat) (e : RosterEntry) : State :=
  let s' := { s with roster := { s.roster with unplaced := s.roster.unplaced.eraseIdx i } }
  if s.isHead then
    (if e.clash then s'.rankClashInput e.serial false none else s').trackExpiry e.serial
  else s'

/-- R152: the entry at a place that has reached 1500 ms. -/
def State.expired (s : State) (p : RosterPlace) : Option RosterEntry :=
  (match p with
    | .slot r => s.roster.slots[r]
    | .unplaced i => s.roster.unplaced[i.val]?).filter (·.isExpired s.now)

/-- R148: the entries whose age has reached 1000 turn STALE. -/
def State.ageEntries (s : State) : State := { s with roster := s.roster.age s.now }

/-! ## Own rank (R153) -/

/-- R153: entering RANKED at rank r closes slot r and removes its entry. -/
def State.closeOwnSlot (s : State) : State :=
  match s.rank.state with
  | .ranked r => { s with roster := { s.roster with slots := put s.roster.slots r none } }
  | .acquiring => s
  | .unranked _ => s

end Sys2Proof.Machine
end

