-- ==== Sys2Proof/Machine/LinkOps.lean ====
section
/-! DEFINITION. The link controller (chapter 7): arrivals, presence and tallies (R119 to R125), attempts, completion
and guards (R129 to R135); and the consumers of COMMAND, QUERY and READING (R50, R51, R124, R155, R210). -/

namespace Sys2Proof.Machine

/-! ## The receiver -/

/-- R122: the link error tally of a kind, none for UNKINDED, raised by 1. -/
def LinkErrors.raise (e : LinkErrors) (k : Option TKind) : LinkErrors :=
  match k with
  | some .command => { e with command := satInc 65535 e.command }
  | some .learn => { e with learn := satInc 65535 e.learn }
  | some .query => { e with query := satInc 65535 e.query }
  | some .reading => { e with reading := satInc 65535 e.reading }
  | some .status => { e with status := satInc 65535 e.status }
  | none => { e with unkinded := satInc 65535 e.unkinded }

/-- R122, R217: a telegram counted in a link error tally. -/
def Link.countError (l : Link) (k : Option TKind) : Link := { l with errors := l.errors.raise k }

/-! ## Stretches of the line (R116, R133, R135) -/

/-- R116: a stretch has lasted this many bit times of a rate. -/
def Rate.reached (r : Rate) (ns bits : Nat) : Bool := decide (bits * 1000000000 ≤ ns * r.bps)

/-- R135: a stretch has passed this many bit times of a rate. -/
def Rate.passed (r : Rate) (ns bits : Nat) : Bool := decide (bits * 1000000000 < ns * r.bps)

/-- R116, R126, R135: the rate that the quiet gap and the guards are measured at: the send rate in force, and before
there is one the strap rate (for the driver guard DEDUCED, log entry 6). -/
def State.lineRate (s : State) : Rate := s.link.presence.sendRate.getD s.cfg.strapRate

/-- R116, R135: the line carried dominant bits and ends recessive: both counts of the line go back to 0. -/
def Link.recount (l : Link) : Link := { l with gapNs := 0, lineNs := 0 }

/-- R116, R133, R135: the own driver released: every count starts again. -/
def Link.letGo (l : Link) : Link := { l with gapNs := 0, driverNs := 0, lineNs := 0 }

/-! ## Candidates, arrivals, presence -/

/-- R119: 30 bit times of the fastest table rate. -/
def quietEnough (quietNs : Nat) : Bool := Rate.r115200.reached quietNs 30

/-- R119: the rate a candidate start gives, if the character then read is a rate mark. -/
def candidateRate (quietNs widthNs : Nat) (driving : Bool) (c : RxChar) : Option Rate :=
  if quietEnough quietNs && !driving && c.stop && c.data == 0x55#8 then Rate.ofWidth widthNs else none

/-- R120, R122: a bad telegram. -/
def Link.bad (l : Link) (k : Option TKind) : Link :=
  match l.receiver with
  | .hunt => l
  | .verify _ _ => { l with receiver := .hunt, badRun := 0 }
  | .synced _ =>
    if 8 ≤ l.badRun + 1 then { l.countError k with receiver := .hunt, badRun := 0 }
    else { l.countError k with badRun := l.badRun + 1 }

/-- R125: the receiver enters SYNCED at a rate; a JOINED station takes only a lower one. -/
def Presence.sync (p : Presence) (x : Rate) : Presence :=
  match p with
  | .listening => .joined x
  | .alone _ => .joined x
  | .joined r => if x.bps < r.bps then .joined x else .joined r

/-- R125: the ALONE timer after a good arrival; an ALONE station's is not restarted (DEDUCED, log entry 15). -/
def Link.restartAlone (l : Link) (now : Ms) : Option Ms :=
  match l.presence with
  | .alone _ => l.aloneAt
  | .listening => some (now + 2000)
  | .joined _ => some (now + 2000)

/-- R120, R122, R125: a good telegram of another station at its arrival. -/
def Link.good (l : Link) (now : Ms) : Link :=
  match l.receiver with
  | .hunt => l
  | .verify r false => { l with receiver := .verify r true, badRun := 0, aloneAt := l.restartAlone now }
  | .verify r true =>
    { l with receiver := .synced r, badRun := 0, aloneAt := l.restartAlone now, presence := l.presence.sync r }
  | .synced _ => { l with badRun := 0, aloneAt := l.restartAlone now }

/-- R119: nothing is delivered in HUNT. -/
def Receiver.delivers : Receiver → Bool
  | .hunt => false
  | .verify _ _ => true
  | .synced _ => true

/-- R123, R217: a good telegram arrives; its payload is tested at delivery and, within its ranges, consumed. -/
def State.arrive {α : Type} (s : State) (k : TKind) (content : Option α) (consume : State → α → State) : State :=
  let s' := { s with link := (s.link.good s.now).recount }
  if s.link.receiver.delivers then
    match content with
    | none => { s' with link := s'.link.countError (some k) }
    | some c => consume s' c
  else s'

/-! ## COMMAND (R50 to R52, R155) -/

/-- R51: the content equals the newest ring entry's. -/
def CommandContent.repeats (c : CommandContent) (ring : List RingEntry) : Bool :=
  match ring.getLast? with
  | none => false
  | some e => e.states == c.states && e.period == c.period && e.crank == c.crank

/-- R50, R51, R53: the effects of an accepted COMMAND and of a refresh alike. -/
def State.refreshCommand (s : State) (c : CommandContent) : State :=
  { s with cmd := { s.cmd with staleAt := some (s.now + 1000), headSupply := 10 * c.vs } }

/-- R51, R52: a COMMAND accepted from a sender; a ring entry is added. -/
def State.acceptCommand (s : State) (sender : Serial) (c : CommandContent) : State :=
  let s := s.refreshCommand c
  State.addRing { s with cmd := { s.cmd with lastEpoch := some c.epoch, lastSender := some sender } }
    ⟨c.epoch, c.states, c.period, c.crank, s.now⟩

/-- R51: an eligible COMMAND; a refresh changes neither epoch nor sender (DEDUCED, log entry 12). -/
def State.trackCommand (s : State) (sender : Serial) (c : CommandContent) : State :=
  if s.cmd.lastSender != some sender || c.fresh then
    if s.cmd.lastEpoch = some c.epoch && c.repeats s.ring then s.refreshCommand c else s.acceptCommand sender c
  else
    match s.cmd.lastEpoch with
    | none => s.acceptCommand sender c
    | some last =>
      if c.epoch = last then s.refreshCommand c
      else if (c.epoch - last).toNat < 128 then s.acceptCommand sender c
      else { s with cmd := { s.cmd with staleTally := satInc 65535 s.cmd.staleTally } }

/-- R155: the telling when a head clash begins. When the last one ended at this very moment and its STATUS is queued,
the holdoff folds the two changes into one: that STATUS is formed again (DEDUCED, log entry 19). -/
def Telling.fold (t : Telling) (now : Ms) : Telling :=
  if t.clashEnd = some now && !t.waiting then { t with holdoffAt := now } else t

/-- R155: a clashing COMMAND. -/
def State.clashCommand (s : State) : State :=
  { s with
    headClashAt := some (s.now + 1500)
    tell := if s.headClashAt.isNone then s.tell.fold s.now else s.tell }

/-- R124: a delivered COMMAND. On the head the coast event precedes the fault list's (DESIGN CHOICE, log entry 25). -/
def State.takeCommand (s : State) (h : RxHeader) (c : CommandContent) : State :=
  if s.isHead then
    let s' := coastEdge s s.clashCommand
    if s.headClashAt.isNone then s'.headClashInput true else s'
  else if h.head then
    if s.eligible h then s.trackCommand h.serial c else s.clashCommand
  else s

/-! ## LEARN, QUERY, READING -/

/-- R99: the conditions under which a unit acts on a LEARN. -/
def State.actsOnLearn (s : State) (h : RxHeader) (epoch stations : Byte) : Bool :=
  !s.isHead && s.eligible h &&
    (match s.rank.state.rank? with
      | none => false
      | some r => stations.getLsbD r.val) &&
    s.actedEpoch != some epoch

/-- R124: a QUERY that starts a spot reading on this unit. -/
def State.answersQuery (s : State) (h : RxHeader) (target : Byte) : Bool :=
  !s.isHead && s.eligible h &&
    (match s.rank.state.rank? with
      | none => false
      | some r => target == BitVec.ofNat 8 r.val)

/-- R210: the outstanding query completes. -/
def State.completeQuery (s : State) (q : Query) (d : ReadingData) : State :=
  State.raise { s with query := { s.query with outstanding := none, result := .done q d } } (.spotDone q.serial q.tag false)

/-- R210: a reading matches the outstanding query. -/
def Query.matches (q : Query) (tag : BitVec 4) (sender : Serial) (c : Circ) : Bool :=
  q.tag == tag && q.serial == sender && q.circuit == c

/-- R210: a READING delivered to the head. -/
def State.takeReading (s : State) (sender : Serial) (tag : BitVec 4) (c : Circ) (d : ReadingData) : State :=
  let late := { s with query := { s.query with late := satInc 65535 s.query.late } }
  match s.query.outstanding with
  | none => late
  | some q => if q.matches tag sender c then s.completeQuery q d else late

/-! ## The transmitter -/

/-- R117: the header this station forms now. -/
def State.ownHeader (s : State) : RxHeader :=
  if s.isHead then ⟨0, false, true, s.cfg.serial⟩
  else
    match s.rank.state with
    | .ranked r => ⟨BitVec.ofNat 3 r.val, false, false, s.cfg.serial⟩
    | .acquiring => ⟨0, true, false, s.cfg.serial⟩
    | .unranked _ => ⟨0, true, false, s.cfg.serial⟩

/-- R129: the characters of an attempt that begins now. -/
def State.attemptChars (s : State) (k : TKind) (payload : Nat) : List Byte :=
  telegramChars k s.ownHeader (bytesLE k.payloadLength payload)

/-- R129: WAIT GAP or YIELDED. -/
def TxState.waits : TxState → Bool
  | .waitGap => true
  | .yielded => true
  | .idle => false
  | .sending _ => false
  | .cutOff => false
  | .latchedOff => false

/-- R126, R129: what an attempt beginning now sends, at the send rate in force. -/
def State.attempt (s : State) (quietNs : Nat) : Option Attempt :=
  match s.link.presence.sendRate with
  | none => none
  | some r =>
    if s.lineRate.reached quietNs 30 && !s.link.stuckHold && s.link.tx.waits then
      s.link.slots.lowest.map fun p => ⟨p.1, r, s.attemptChars p.1 p.2, false⟩
    else none

/-- R115, R126: what the own driver sends while SENDING: the rate the attempt began with, and its bits in order. -/
def TxState.driven (t : TxState) : Option (Rate × List Bool) :=
  match t with
  | .sending a => some (a.rate, lineBits a.chars)
  | .idle => none
  | .waitGap => none
  | .yielded => none
  | .cutOff => none
  | .latchedOff => none

/-- R130: the bit the station sent where the line first read otherwise, if that is the last bit read back. -/
def lastDiffers : List Bool → List Bool → Option Bool
  | sent :: _, [read] => if sent = read then none else some sent
  | sent :: ss, read :: rs => if sent = read then lastDiffers ss rs else none
  | _, [] => none
  | [], _ => none

/-- R130: during an attempt, the bit sent that read back otherwise. -/
def State.readBack (s : State) (line : List Bool) : Option Bool :=
  match s.link.tx.driven with
  | some d => lastDiffers d.2 line
  | none => none

/-- R128: the slot of a kind emptied. -/
def Slots.empty (p : Slots) (k : TKind) : Slots :=
  match k with
  | .command => { p with command := none }
  | .learn => { p with learn := none }
  | .query => { p with query := none }
  | .reading => { p with reading := none }
  | .status => { p with status := none }

/-- R129, R132: where the transmitter goes with this pending set. -/
def Slots.rest (p : Slots) : TxState := if p.isEmpty then .idle else .waitGap

/-- R209: the QUERY slot is free: a waiting QUERY is queued. -/
def State.offerQuery (s : State) : State :=
  match s.query.waiting with
  | none => s
  | some p => State.putSlot { s with query := { s.query with waiting := none } } .query fun l => { l with query := some p }

/-- R211: the READING slot is free: a waiting READING is queued. -/
def State.offerReading (s : State) : State :=
  match s.spot.waiting with
  | none => s
  | some p => State.putSlot { s with spot := { s.spot with waiting := none } } .reading fun l => { l with reading := some p }

/-- R128: the engine of a kind is told that its slot is free. -/
def State.tellFree (s : State) (k : TKind) : State :=
  match k with
  | .query => s.offerQuery
  | .reading => s.offerReading
  | .command => s
  | .learn => s
  | .status => s

/-- R128, R132: attempt a completes. A slot whose content was replaced stays pending. -/
def State.complete (s : State) (a : Attempt) : State :=
  let slots := if a.replaced then s.link.slots else s.link.slots.empty a.kind
  let s' := { s with link := { s.link.letGo with slots := slots, tx := slots.rest } }
  if a.replaced then s' else s'.tellFree a.kind

/-- R133: a third cut-off within 60000 ms of the older of two. -/
def latches (record : List Ms) (now : Ms) : Bool :=
  match record with
  | [older, _] => decide (now ≤ older + 60000)
  | _ => false

/-- R133: the two most recent cut-offs. -/
def addCut (record : List Ms) (now : Ms) : List Ms :=
  if record.length < 2 then record ++ [now] else record.drop 1 ++ [now]

/-- R133, R134: the driver guard acts. -/
def Link.cut (l : Link) (now : Ms) : Link :=
  if latches l.cutRecord now then { l.letGo with tx := .latchedOff, slots := ⟨none, none, none, none, none⟩ }
  else { l.letGo with tx := .cutOff, cutRecord := addCut l.cutRecord now }

/-- R133: the guard has a driver to release. -/
def TxState.drivable : TxState → Bool
  | .cutOff => false
  | .latchedOff => false
  | .idle => true
  | .waitGap => true
  | .sending _ => true
  | .yielded => true

/-! ## Spot readings (R209, R211) -/

/-- R211: a finished reading's content for circuit k. -/
def Circuit.reading (k : Circuit) (sumV sumI : Nat) : ReadingData :=
  let vm := divRound sumV 4
  let im := divRound sumI 4
  let inorm := normalise k.cfg.kind im vm
  let lamp := k.cfg.kind.isLamp
  ⟨vm, im, inorm, if lamp then k.reference.1 else 0,
    if lamp then (classifyLamp inorm k.cfg.n k.reference.1).2 else 0, k.cfg.n, k.ref.learn⟩

/-- R211: a unit's READING queued, or kept waiting while the slot is occupied. -/
def State.queueReading (s : State) (p : BitVec 104) : State :=
  if s.link.slots.reading.isSome then { s with spot := { s.spot with waiting := some p } }
  else s.putSlot .reading fun l => { l with reading := some p }

/-- R210, R211: a local reading completes the head's query; one that does not match is dropped (DEDUCED, log entry 27). -/
def State.localReading (s : State) (tag : BitVec 4) (c : Circ) (d : ReadingData) : State :=
  match s.query.outstanding with
  | none => s
  | some q => if q.matches tag s.cfg.serial c then s.completeQuery q d else s

/-- R211: a spot pair of the reading's circuit added; the fourth forms the result and leaves the engine IDLE. -/
def State.addSpotPair (s : State) (r : SpotRun) (vm im : Nat) : State :=
  let r := { r with pairs := r.pairs + 1, sumV := r.sumV + vm, sumI := r.sumI + im }
  if 4 ≤ r.pairs then
    let d := s.circuits[r.circuit].reading r.sumV r.sumI
    let s := { s with spot := { s.spot with reading := none } }
    if s.isHead then s.localReading r.tag r.circuit d else s.queueReading (readingPayload r.tag r.circuit d)
  else { s with spot := { s.spot with reading := some r } }

end Sys2Proof.Machine
end

