-- ==== Sys2Proof/Machine/Learning.lean ====
section
/-! DEFINITION. The reference unit and the write engine (chapter 6): learning started, sampled and ended (R100 to
R105), reference writes queued, started and ended (R109, R110). -/

namespace Sys2Proof.Machine

/-! ## Learning -/

/-- R100: a circuit enters LEARNING under epoch e. -/
def RefUnit.enter (r : RefUnit) (e : Byte) (now : Ms) : RefUnit :=
  { r with learn := .learning, k := 0, sum := 0, deadline := some (now + 30000), epoch := some e }

/-- R98: the state a failure returns to. -/
def RefUnit.previous (r : RefUnit) : LearnState := if r.iref.isSome then .learned else .unlearned

/-- R104, R105: learning fails. -/
def RefUnit.fail (r : RefUnit) (why : LearnOutcome) : RefUnit :=
  { r with learn := r.previous, outcome := why, k := 0, sum := 0, deadline := none }

/-- R103: a new Iref is adopted and its write waits. -/
def RefUnit.adopt (r : RefUnit) (iref : Nat) : RefUnit :=
  { r with
    learn := .learned, iref := some iref, outcome := .done, k := 0, sum := 0, deadline := none, save := .waiting }

/-- R101: whether a sample agrees with those accepted. -/
def RefUnit.agrees (r : RefUnit) (sample : Nat) : Bool :=
  r.k = 0 || absDiff sample ((r.sum + r.k / 2) / r.k) * 8 ≤ (r.sum + r.k / 2) / r.k

/-- R99, R100: a LEARN acted on by the unit. -/
def State.actOnLearn (s : State) (e circuits : Byte) : State :=
  { s with
    actedEpoch := some e
    circuits := eight fun c =>
      let k := s.circuits[c]
      if circuits.getLsbD c.val && k.cfg.kind.isLamp then { k with ref := k.ref.enter e s.now } else k }

/-! ## The write engine -/

/-- R109: a reference write queued; the circuit's waiting entry is replaced in place. -/
def WriteEngine.add (w : WriteEngine) (c : Circ) (iref : Nat) : WriteEngine :=
  if w.queue.any (·.circuit == c) then
    { w with queue := w.queue.map fun q => if q.circuit = c then ⟨c, iref⟩ else q }
  else { w with queue := w.queue ++ [⟨c, iref⟩] }

/-- R109: the save state of circuit c. -/
def State.setSave (s : State) (c : Circ) (v : SaveState) : State :=
  s.setC c { s.circuits[c] with ref := { s.circuits[c].ref with save := v } }

/-- R109: a free engine with something waiting starts a write, the configuration slot first. -/
def State.startWrite (s : State) : State :=
  match s.writes.current with
  | some _ => s
  | none =>
    match s.writes.configSlot, s.writes.queue with
    | some b, _ =>
      { s with writes := { s.writes with configSlot := none, current := some ⟨.config, withCheck b, s.now + 10⟩ } }
    | none, q :: rest =>
      State.setSave
        { s with writes := { s.writes with
            queue := rest, current := some ⟨.reference q.circuit, withCheck (refContent q.iref), s.now + 10⟩ } }
        q.circuit .writing
    | none, [] => s

/-- R103, R104, R109: eight samples accepted. -/
def State.finishLearning (s : State) (c : Circ) (sum : Nat) : State :=
  let k := s.circuits[c]
  let iref := (sum + 4) / 8
  if k.cfg.adopts iref then
    State.startWrite
      { s.setC c { k with ref := k.ref.adopt iref } with writes := s.writes.add c iref }
  else s.setC c { k with ref := k.ref.fail .failedOutOfRange }

/-- R101: a lamp sample handed to the reference unit; one for a circuit that is not LEARNING is ignored. -/
def State.handSample (s : State) (c : Circ) (sample : Nat) : State :=
  let k := s.circuits[c]
  if k.ref.learn = .learning then
    if k.ref.agrees sample then
      if 8 ≤ k.ref.k + 1 then s.finishLearning c (k.ref.sum + sample)
      else s.setC c { k with ref := { k.ref with k := k.ref.k + 1, sum := k.ref.sum + sample } }
    else s.setC c { k with ref := { k.ref with k := 1, sum := sample } }
  else s

/-- R110: what the store holds after an item is written. -/
def Store.write (t : Store) (item : StoreItem) (bytes : List Byte) : Store :=
  match item with
  | .config => { t with config := bytes }
  | .reference c => { t with refs := put t.refs c bytes }

/-- R110: the save state or the STORE CONFIG reply after a write that matched or not. -/
def State.reportWrite (s : State) (item : StoreItem) (ok : Bool) : State :=
  match item with
  | .config =>
    { s with port := { s.port with slot := .finished (replyBytes (if ok then codeDone else codeFailed) []) } }
  | .reference c =>
    if s.writes.queue.any (·.circuit == c) then s else s.setSave c (if ok then .saved else .failed)

/-- R110: a write ends and the item reads back these bytes; the engine is free and starts the next write. -/
def State.endWrite (s : State) (w : StoreWrite) (readback : List Byte) : State :=
  let ok := readback == w.bytes
  let s := { s with
    store := s.store.write w.item readback
    writes := { s.writes with current := none }
    flags := if ok then s.flags else { s.flags with storeFault := true } }
  (s.reportWrite w.item ok).startWrite

end Sys2Proof.Machine
end

