-- ==== Sys2Proof/Machine/StartUp.lean ====
section
/-! DEFINITION. Start-up reset (R25): the effective configuration (R3 to R6), the reference records (R108), what an
interrupted write leaves (R111), and the start-up values of every block. -/

namespace Sys2Proof.Machine

/-! ## Circuits -/

/-- R5: a circuit that is not fitted, whatever its word says. -/
def CircuitCfg.unfit (w : CircuitCfg) : CircuitCfg := { w with kind := .notFitted, n := 0, rating := 0 }

/-- R5: the clamps of a lamp circuit. -/
def CircuitCfg.clampLamp (w : CircuitCfg) : CircuitCfg := { w with n := min w.n 8, rating := max 1 (min w.rating 500) }

/-- R5: the effective circuit of a stored word, and whether it sets CONFIG FAULT. -/
def CircuitCfg.effective (role : Role) (w : CircuitCfg) : CircuitCfg × Bool :=
  match w.kind, role with
  | .notFitted, _ => (w.unfit, false)
  | .feed, .unit => (w.unfit, true)
  | .feed, .head => ({ w with n := 0, rating := 0 }, false)
  | .incandescent, .head => (w.unfit, true)
  | .led, .head => (w.unfit, true)
  | .incandescent, .unit => if w.n = 0 then (w.unfit, true) else (w.clampLamp, w.clampLamp != w)
  | .led, .unit => if w.n = 0 then (w.unfit, true) else (w.clampLamp, w.clampLamp != w)

/-- R108: the reference unit of a circuit from its stored record, and whether it sets STORE FAULT. -/
def RefUnit.fromRecord (cfg : CircuitCfg) (bytes : List Byte) : RefUnit × Bool :=
  if cfg.kind.isLamp then
    match itemCondition bytes with
    | .erased => (.unlearned, false)
    | .bad => ({ RefUnit.unlearned with outcome := .recordBad }, true)
    | .good =>
      let figure := natLE bytes.dropLast
      if cfg.adopts figure then ({ RefUnit.unlearned with learn := .learned, iref := some figure, save := .saved }, false)
      else ({ RefUnit.unlearned with outcome := .recordDiscarded }, false)
  else (.unlearned, false)

/-- R61: a window from 0, de-energized, on a fitted circuit. -/
def Circuit.start (cfg : CircuitCfg) (ref : RefUnit) : Circuit :=
  { Circuit.unfitted with
    cfg := cfg
    opened := if cfg.kind.isFitted then some (Rec.open .window 0 false) else none
    filter := .start cfg.n
    ref := ref }

/-! ## The store -/

/-- R111: bytes that read as bad. They are free, but for one bit that is changed where the free bytes happen to read
as erased or good (DESIGN CHOICE, log entry 9). -/
def damagedItem (free len : Nat) : List Byte :=
  let bytes := (List.range len).map (Config.damagedByte free)
  if itemCondition bytes = .bad then bytes
  else 0x00#8 :: ((bytes.drop 1).dropLast ++ [checkByte (0x00#8 :: (bytes.drop 1).dropLast) ^^^ 1#8])

/-- R111: the store as a start-up reset finds it: an item being written is old, new or bad. -/
def State.leftStore (s : State) : Store :=
  match s.writes.current with
  | none => s.store
  | some w =>
    if Config.writeRemnant s.free = 0 then s.store
    else if Config.writeRemnant s.free = 1 then s.store.write w.item w.bytes
    else s.store.write w.item (damagedItem s.free w.bytes.length)

/-! ## The station -/

/-- R3: the role of the ROLE strap. -/
def Pins.roleOf (p : Pins) : Role := if p.role then .head else .unit

/-- R3: the strap rate. -/
def Pins.strapRate (p : Pins) : Rate := .ofStraps p.rate1 p.rate0

/-- R4: the words of an erased block: NOT FITTED (their function: DESIGN CHOICE, log entry 17). -/
def CircuitCfg.erased : CircuitCfg := ⟨.aux, .notFitted, 0, 0⟩

/-- R4: the block passes its check. -/
def Store.blockGood (t : Store) : Bool := itemCondition t.config == .good

/-- R3, R4, R6: the station's part of the effective configuration. -/
def Store.stationCfg (t : Store) (p : Pins) : StationCfg where
  role := p.roleOf
  strapRate := p.strapRate
  serial := if t.blockGood then blockSerial t.config.dropLast else 0xFFFFFF#24
  coastMask := if t.blockGood then blockMask t.config.dropLast else .all

/-- R4, R5: the effective circuit c. -/
def Store.circuitCfg (t : Store) (role : Role) (c : Circ) : CircuitCfg × Bool :=
  if t.blockGood then (wordCfg (blockWord t.config.dropLast c)).effective role else (.erased, false)

/-- R108: the reference unit of circuit c. -/
def Store.refUnit (t : Store) (role : Role) (c : Circ) : RefUnit × Bool :=
  RefUnit.fromRecord (t.circuitCfg role c).1 t.refs[c]

/-- R4, R5, R108, R202: the sticky flags of the start-up checks. -/
def Store.flags (t : Store) (role : Role) : Flags :=
  { Flags.clear with
    storeFault := !t.blockGood || allCirc.any fun c => (t.refUnit role c).2
    configFault := !t.blockGood || allCirc.any fun c => (t.circuitCfg role c).2 }

/-- R61: the head's epoch-0 entry. -/
def RingEntry.first : RingEntry := ⟨0, Vector.replicate 8 .off, 0, false, 0⟩

/-- R142: the rank unit's start-up values. -/
def RankUnit.start (role : Role) : RankUnit :=
  match role with
  | .head => ⟨.ranked 0, none, 0, none, none⟩
  | .unit => ⟨.acquiring, none, 0, some 500, none⟩

/-- The start-up values of every block, before anything is queued. The queue of commands, the pins and the index of
free values are kept; the index moves on where a write was abandoned. -/
def State.startValues (s : State) : State :=
  let t := s.leftStore
  let role := s.pins.roleOf
  { State.reset with
    pending := s.pending
    free := if s.writes.current.isSome then s.free + 1 else s.free
    pins := s.pins
    store := t
    cfg := t.stationCfg s.pins
    circuits := eight fun c => .start (t.circuitCfg role c).1 (t.refUnit role c).1
    ring := if role = .head then [RingEntry.first] else []
    rank := .start role
    flags := t.flags role }

/-- R25: a start-up reset. A STATUS is queued at once (R136), and on the head the COMMAND of epoch 0 (R49). -/
def State.startUp (s : State) : State :=
  let s := s.startValues.queueStatus
  if s.isHead then s.queueCommand else s

end Sys2Proof.Machine
end

