-- ==== Sys2Proof/Machine/PortRows.lean ====
section
/-! DEFINITION. The rows of the dashboard port (chapter 11): FRAME_START, BAD_FRAME, UNKNOWN and the fourteen requests.
A request row is the release of PSEL after a complete frame; without a frame in progress it has no effect (log
entry 18). -/

namespace Sys2Proof.Machine

/-! ## Frames (R198) -/

/-- R198: the out frame of a reply slot. -/
def ReplySlot.out : ReplySlot → List Byte × FrameStart
  | .finished b => (b, .reply)
  | .inProgress => ([codeNotReady], .notReady)
  | .none => ([codeNoRequest], .noRequest)

/-- R198, R218: the byte that PDO shifts out after `i` whole bytes of the frame in progress: the out frame, then 00h
while PSEL stays asserted. The spec gives PDO no value outside a frame. -/
def Port.shifted (p : Port) (i : Nat) : Option Byte := p.frame.map fun _ => p.out.getD i 0#8

/-- R198: PDO after `n` bits of the frame in progress, bit 0 of each byte first. -/
def Port.pdo (p : Port) (n : Nat) : Option Bool := (p.shifted (n / 8)).map fun b => b.getLsbD (n % 8)

/-- FRAME_START (R198). -/
def execFrameStart (s : State) : Host.Outcome State Fault Refusal :=
  .next (match s.port.frame with
    | some _ => s
    | none => { s with port := { s.port with frame := some s.port.slot.out.2, out := s.port.slot.out.1 } })

/-- R198: the frame ends; a reply that it shifted out leaves the slot. -/
def Port.endFrame (p : Port) (f : FrameStart) : Port :=
  match f with
  | .reply => { p with frame := none, slot := .none }
  | .noRequest => { p with frame := none }
  | .notReady => { p with frame := none }

/-- R198: the release of PSEL. A frame answered NOT READY is discarded; otherwise what it carried is acted on. -/
def State.atRelease (s : State) (act : State → State) : State :=
  match s.port.frame with
  | none => s
  | some .notReady => { s with port := s.port.endFrame .notReady }
  | some .reply => act { s with port := s.port.endFrame .reply }
  | some .noRequest => act { s with port := s.port.endFrame .noRequest }

/-- R218: a reply put in the slot. -/
def State.reply (s : State) (outcome : Byte) (data : List Byte) : State :=
  { s with port := { s.port with slot := .finished (replyBytes outcome data) } }

/-- R199: a request that a unit answers NOT HEAD. -/
def State.headOnly (act : State → State) (s : State) : State := if s.isHead then act s else s.reply codeNotHead []

/-- BAD_FRAME (R198). -/
def execBadFrame (s : State) : Host.Outcome State Fault Refusal := .next (s.atRelease fun s => s.reply codeBadFrame [])

/-- UNKNOWN (R198). -/
def execUnknown (_code : Byte) (s : State) : Host.Outcome State Fault Refusal :=
  .next (s.atRelease fun s => s.reply codeUnknown [])

/-! ## Reading the station -/

/-- STATUS (R203). -/
def execStatus (s : State) : Host.Outcome State Fault Refusal :=
  .next (s.atRelease fun s => s.reply codeDone s.statusReply)

/-- R201: EVENT. -/
def State.popEvent (s : State) : State :=
  match s.events with
  | [] => s.reply codeEmpty []
  | e :: rest => State.reply { s with events := rest } codeDone e.bytes

/-- EVENT (R201). -/
def execEvent (s : State) : Host.Outcome State Fault Refusal := .next (s.atRelease (State.headOnly State.popEvent))

/-- R204: ENTRY. -/
def State.readEntry (index : Byte) (s : State) : State :=
  match s.faults.entries[index.toNat]? with
  | none => s.reply codeNoEntry []
  | some e => s.reply codeDone (index :: e.bytes)

/-- ENTRY (R204). -/
def execEntry (index : Byte) (s : State) : Host.Outcome State Fault Refusal :=
  .next (s.atRelease (State.headOnly (State.readEntry index)))

/-- R204: ACK. -/
def State.ack (index : Byte) (serial : Serial) (s : State) : State :=
  match s.faults.entries[index.toNat]? with
  | none => s.reply codeNoEntry []
  | some e =>
    if e.key.serial = serial then
      let s := s.ackAt index.toNat
      s.reply codeDone (byte1 e.state.code ++ byte1 s.faults.entries.length)
    else s.reply codeMismatch []

/-- ACK (R204). -/
def execAck (index : Byte) (serial : Serial) (s : State) : Host.Outcome State Fault Refusal :=
  .next (s.atRelease (State.headOnly (State.ack index serial)))

/-- R204: ACK ALL. -/
def State.ackAll (s : State) : State :=
  let s' := s.ackEvery
  s'.reply codeDone (byte1 (s.faults.entries.length - s'.faults.entries.length) ++ byte1 s'.faults.entries.length)

/-- ACK_ALL (R204). -/
def execAckAll (s : State) : Host.Outcome State Fault Refusal := .next (s.atRelease (State.headOnly State.ackAll))

/-- R202: CLEAR FLAGS. -/
def State.clearFlags (mask : Byte) (s : State) : State :=
  let f := s.flags.clearMask mask
  State.reply { s with flags := f } codeDone [f.toByte]

/-- CLEAR_FLAGS (R202). -/
def execClearFlags (mask : Byte) (s : State) : Host.Outcome State Fault Refusal :=
  .next (s.atRelease (State.headOnly (State.clearFlags mask)))

/-! ## LEARN (R207) -/

/-- R207: the stations a LEARN tracks: set bits 1..7 whose slot holds an entry. -/
def State.learnTargets (s : State) (stations : Byte) : List Rank :=
  allCirc.filter fun r => r != 0 && stations.getLsbD r.val && s.roster.slots[r].isSome

/-- R207: the tracked mask. -/
def maskOf (rs : List Rank) : Byte := rs.foldl (fun m r => m ||| circBit r) 0#8

/-- R207: a LEARN accepted. -/
def State.startLearn (s : State) (stations circuits : Byte) : State :=
  let targets := s.learnTargets stations
  let epoch := s.learner.epoch + 1
  let tracked := targets.filterMap fun r => s.roster.slots[r].map fun e => ⟨e.serial, false, s.now + 2000⟩
  let s := { s with learner := ⟨epoch, circuits, tracked⟩ }
  let p := learnPayload epoch stations circuits
  (s.putSlot .learn fun l => { l with learn := some p }).reply codeAccepted [epoch, maskOf targets]

/-- R207: LEARN. -/
def State.requestLearn (stations circuits : Byte) (s : State) : State :=
  if s.learnInProgress || s.link.slots.learn.isSome then s.reply codeBusy []
  else if (s.learnTargets stations).isEmpty then s.reply codeNoStation []
  else s.startLearn stations circuits

/-- LEARN (R207). -/
def execLearn (stations circuits : Byte) (s : State) : Host.Outcome State Fault Refusal :=
  .next (s.atRelease (State.headOnly (State.requestLearn stations circuits)))

/-! ## SPOT (R209) -/

/-- R209: the outstanding query of an accepted SPOT. -/
def State.openQuery (s : State) (rank : Rank) (serial : Serial) (c : Circ) : State :=
  let q : Query := ⟨s.query.nextTag, rank, serial, c, s.now + 500⟩
  { s with query := { s.query with outstanding := some q, nextTag := s.query.nextTag + 1, result := .pending q } }

/-- R209: a QUERY queued, or kept waiting while the slot is occupied. -/
def State.queueQuery (s : State) (p : BitVec 24) : State :=
  if s.link.slots.query.isSome then { s with query := { s.query with waiting := some p } }
  else s.putSlot .query fun l => { l with query := some p }

/-- R209: SPOT for a rank and a circuit in range. -/
def State.requestSpot (rank : Rank) (c : Circ) (s : State) : State :=
  let tag := s.query.nextTag
  if s.query.outstanding.isSome then s.reply codeBusy []
  else if rank = 0 then
    ((s.openQuery rank s.cfg.serial c).startReading tag c).reply codeAccepted (byte1 tag.toNat)
  else
    match s.roster.slots[rank] with
    | none => s.reply codeNoStation []
    | some e =>
      ((s.openQuery rank e.serial c).queueQuery (queryPayload tag rank c)).reply codeAccepted (byte1 tag.toNat)

/-- SPOT (R209; range by R199). -/
def execSpot (rank circuit : Byte) (s : State) : Host.Outcome State Fault Refusal :=
  .next (s.atRelease (State.headOnly fun s =>
    if hr : rank.toNat < 8 then
      if hc : circuit.toNat < 8 then s.requestSpot ⟨rank.toNat, hr⟩ ⟨circuit.toNat, hc⟩
      else s.reply codeBadRequest []
    else s.reply codeBadRequest []))

/-- SPOT_RESULT (R210). -/
def execSpotResult (s : State) : Host.Outcome State Fault Refusal :=
  .next (s.atRelease (State.headOnly fun s => s.reply codeDone s.query.result.bytes))

/-! ## ROSTER, LOCAL, TALLIES (R205) -/

/-- R205: what ROSTER reads of an unplaced position or of an open slot. -/
def entryReply (e : Option RosterEntry) (place : Nat) : List Byte :=
  match e with
  | none => byte1 1
  | some e => e.bytes place

/-- R205: the data of ROSTER for a position in range. -/
def State.rosterReply (s : State) (p : Nat) : List Byte :=
  if h : p < 8 then
    if s.slotClosed ⟨p, h⟩ then byte1 0 else entryReply s.roster.slots[(⟨p, h⟩ : Rank)] p
  else entryReply s.roster.unplaced[p - 8]? 8

/-- ROSTER (R205; range by R199). -/
def execRoster (position : Byte) (s : State) : Host.Outcome State Fault Refusal :=
  .next (s.atRelease fun s =>
    if 11 < position.toNat then s.reply codeBadRequest [] else s.reply codeDone (s.rosterReply position.toNat))

/-- LOCAL (R205; range by R199). -/
def execLocalRead (circuit : Byte) (s : State) : Host.Outcome State Fault Refusal :=
  .next (s.atRelease fun s =>
    if h : circuit.toNat < 8 then s.reply codeDone (s.localReply ⟨circuit.toNat, h⟩) else s.reply codeBadRequest [])

/-- TALLIES (R205). -/
def execTallies (s : State) : Host.Outcome State Fault Refusal :=
  .next (s.atRelease fun s => s.reply codeDone s.talliesReply)

/-! ## RESTART, STORE CONFIG -/

/-- RESTART (R206): a start-up reset at the release of the frame. -/
def execRestart (s : State) : Host.Outcome State Fault Refusal := .next (s.atRelease State.startUp)

/-- R112: STORE CONFIG; an accepted block's reply stays in progress until its write ends. -/
def State.storeConfig (block : List Byte) (s : State) : State :=
  if 10000 ≤ s.count then s.reply codeTooLate []
  else if s.lowSupply.active && s.cfg.coastMask.lowSupply then s.reply codeLowSupply []
  else
    State.startWrite { s with
      writes := { s.writes with configSlot := some block }, port := { s.port with slot := .inProgress } }

/-- STORE_CONFIG (R112). -/
def execStoreConfig (block : List Byte) (s : State) : Host.Outcome State Fault Refusal :=
  .next (s.atRelease (State.storeConfig block))

end Sys2Proof.Machine
end

