-- ==== Sys2Proof/Machine/RankOps.lean ====
section
/-! DEFINITION. The rank line (R140 to R145): bursts on REAR, stretches and bursts on FRONT, the run and the rank. -/

namespace Sys2Proof.Machine

/-! ## REAR (R140) -/

/-- R140: the burst that begins at time t, if any. -/
def RankState.burstAt (s : RankState) (t : Ms) : Option RearBurst :=
  match s with
  | .ranked r => some ⟨t, r.val + 1, 0⟩
  | .acquiring => none
  | .unranked _ => none

/-- R140: a multiple of 100 ms: a burst begins, or none does and one in progress goes on. -/
def Rear.start (x : Rear) (s : RankState) : Rear :=
  match s.burstAt x.next with
  | some b => { x with burst := some b, next := x.next + 100 }
  | none => { x with next := x.next + 100 }

/-- R140: when the next edge of a burst falls due: edge j at s + j, rising for even j. -/
def RearBurst.edgeAt (b : RearBurst) : Ms := b.start + b.edges

/-- R140: the next edge driven; the 2k-th ends the burst. -/
def Rear.drive (x : Rear) (b : RearBurst) : Rear :=
  { x with
    level := b.edges % 2 == 0
    burst := if b.edges + 1 < 2 * b.pulses then some { b with edges := b.edges + 1 } else none }

/-! ## FRONT (R141) -/

/-- R141: a high stretch of `us` microseconds that ends at clock `t` (DESIGN CHOICE, log entry 22). -/
def frontStretch (b : Option FrontBurst) (us t : Nat) : Option FrontBurst :=
  if us < 500 then b
  else if us ≤ 2000 then
    match b with
    | none => some ⟨1, false, t⟩
    | some b => some { b with count := satInc 8 b.count, lowFrom := t }
  else
    match b with
    | none => some ⟨0, true, t⟩
    | some b => some { b with malformed := true, lowFrom := t }

/-- R141: the open burst has ended: FRONT low for 5 ms after its last high stretch. -/
def State.endedBurst (s : State) : Option FrontBurst :=
  if s.isHead || s.pins.front then none
  else s.rank.openBurst.filter fun b => decide (b.lowFrom + 40 ≤ s.ticks)

/-! ## The run and the rank (R143, R144) -/

/-- R143: the rank state that a run value reaching length 3 decides. -/
def RankState.decide (s : RankState) (v : Nat) : RankState :=
  if v = 8 then .unranked .overflow
  else if h : v < 8 then (if v = 0 then s else .ranked ⟨v, h⟩)
  else s

/-- R143: a well-formed burst of count k ends: the run, the silence deadline, and the state it decides. -/
def RankUnit.wellFormed (u : RankUnit) (k : Nat) (now : Ms) : RankUnit :=
  let same := u.runValue = some k
  let length := if same then satInc 3 u.runLength else 1
  { state := if length = 3 ∧ ¬(same ∧ u.runLength = 3) then u.state.decide k else u.state
    runValue := some k
    runLength := length
    silenceAt := some (now + 500)
    openBurst := none }

/-- R143: a malformed burst ends. -/
def RankUnit.malformed (u : RankUnit) : RankUnit := { u with runValue := none, runLength := 0, openBurst := none }

/-- R143: a burst ends. -/
def RankUnit.endBurst (u : RankUnit) (b : FrontBurst) (now : Ms) : RankUnit :=
  if b.malformed then u.malformed else u.wellFormed b.count now

/-- R144: the silence deadline is reached. -/
def RankUnit.silent (u : RankUnit) : RankUnit :=
  { u with state := .unranked .frontSilent, runValue := none, runLength := 0, silenceAt := none }

/-- R145, R153: a new rank unit; entering a rank closes its slot. -/
def State.setRank (s : State) (u : RankUnit) : State :=
  if u.state = s.rank.state then { s with rank := u } else State.closeOwnSlot { s with rank := u }

end Sys2Proof.Machine
end

