-- ==== Sys2Proof/Machine/Judge.lean ====
section
/-! DEFINITION. Judgement (R46): the verdict engine (R62 to R78), the attribution unit (R160 to R162), the current
balance (R167 to R171), and a record taken, applied and kept. -/

namespace Sys2Proof.Machine

/-! ## Energize content (R40) -/

def Rec.litThroughout (r : Rec) : Bool := r.initial && r.edges == 0

def Rec.darkThroughout (r : Rec) : Bool := !r.initial && r.edges == 0

/-! ## Attribution -/

/-- R161: a circuit of F that counts in the entry of slot x. -/
def CircuitReport.counts (c : CircuitReport) (x : Rank) (f : LampFn) : Bool :=
  c.fn == f && (if x = 0 then c.kind == .feed else c.kind.isLamp)

/-- R162: a circuit of F shows supply. -/
def CircuitReport.showsSupply (c : CircuitReport) (f : LampFn) : Bool := c.energized || f.isTurn && decide (0 < c.mean)

/-- R161: the entry of slot x is not passed over. -/
def State.decides (s : State) (f : LampFn) (x : Rank) : Bool :=
  match s.roster.slots[x] with
  | none => false
  | some e => e.isFresh && allCirc.any fun c => e.report.circuits[c].counts x f

/-- R161: the slots ahead of rank r, nearest first. -/
def ahead (r : Rank) : List Rank := (allCirc.filter fun x => decide (x < r)).reverse

/-- R162: what the entry of slot x says of F. -/
def State.decideAt (s : State) (f : LampFn) (x : Rank) : Attribution × Option Nat :=
  match s.roster.slots[x] with
  | none => (.unattributed, none)
  | some e =>
    if allCirc.any fun c => e.report.circuits[c].counts x f && e.report.circuits[c].showsSupply f then
      (.coupling, some x.val)
    else (.shadowed, none)

/-- R75, R160 to R162: the attribution of a supply loss of F now. -/
def State.attribute (s : State) (f : LampFn) : Attribution × Option Nat :=
  if s.isHead then (.tractor, none)
  else
    match s.rank.state.rank? with
    | none => (.unattributed, none)
    | some r =>
      match (ahead r).find? (s.decides f) with
      | none => (.unattributed, none)
      | some x => s.decideAt f x

/-! ## Verdicts -/

def Findings.none : Findings := ⟨false, false, false, false⟩

/-- A verdict with nothing but its kind. -/
def Verdict.plain (k : Option FaultKind) : Verdict := ⟨k, .none, .none, .none, .none⟩

/-- R68, R76: the findings a record carries to the verdict engine. -/
def Rec.findings (r : Rec) : Findings :=
  if r.heldOn then { Findings.none with heldOn := true }
  else
    match r.note with
    | .none => .none
    | some n => ⟨n.period, n.duty, n.mismatch, false⟩

/-- R75: a NO SUPPLY verdict completed with its attribution. -/
def State.noSupply (s : State) (f : LampFn) : Verdict :=
  { Verdict.plain (some .noSupply) with attribution := some (s.attribute f).1, front := (s.attribute f).2 }

/-- R21, R22, R71 to R73: stages 1 to 6; none for a record thin for lamp estimation. -/
def Circuit.stages (k : Circuit) (r : Rec) : Option (Option FaultKind × LampStages) :=
  if tooFew r.kind r.n || decide (meanOf r.sumV r.n < 18000) then none
  else
    let inorm := normalise k.cfg.kind (meanOf r.sumI r.n) (meanOf r.sumV r.n)
    let ref := k.reference
    let verdict := classifyLamp inorm k.cfg.n ref.1
    some (verdict.1, ⟨inorm, ref.1, ref.2, verdict.2, k.cfg.n⟩)

/-- A verdict that carries lamp stages. -/
def Verdict.staged (v : Option FaultKind × LampStages) : Verdict := { Verdict.plain v.1 with lamp := some v.2 }

/-- R67, R68: the verdict of an ON-phase record against FLASHING. -/
def Circuit.flashVerdict (k : Circuit) (r : Rec) : Option Verdict :=
  match k.stages r with
  | some (some fault, st) => some (.staged (some fault, st))
  | some (.none, st) =>
    if r.findings = .none then some (.staged (.none, st))
    else some { Verdict.staged (some .cadence, st) with findings := r.findings }
  | .none =>
    if r.findings = .none then .none else some { Verdict.plain (some .cadence) with findings := r.findings }

/-- R66, R77: the verdict of a window against OFF. -/
def offVerdict (r : Rec) : Verdict := .plain (if r.darkThroughout then .none else some .stray)

/-- R64 to R70: a lamp circuit's record; none is thin. -/
def State.lampVerdict (s : State) (k : Circuit) (r : Rec) (expected : FnState) : Option Verdict :=
  match expected, r.kind with
  | .on, .window =>
    if r.litThroughout then (k.stages r).map .staged
    else if r.darkThroughout then some (s.noSupply k.cfg.fn)
    else if 2 ≤ r.edges then some (.plain (some .flicker))
    else none
  | .off, .window => some (offVerdict r)
  | .off, .onPhase => some (.plain (some .stray))
  | .flashing, .onPhase => k.flashVerdict r
  | .flashing, .missedFlash => some (s.noSupply k.cfg.fn)
  | .on, .onPhase => none
  | .on, .missedFlash => none
  | .off, .missedFlash => none
  | .flashing, .window => none

/-- R77: a FEED circuit's record; none is thin. -/
def State.feedVerdict (s : State) (k : Circuit) (r : Rec) (expected : FnState) : Option Verdict :=
  match expected, r.kind with
  | .on, .window =>
    if r.litThroughout then
      if tooFew r.kind r.n || decide (meanOf r.sumV r.n < 18000) then none else some (.plain .none)
    else if r.darkThroughout then some (s.noSupply k.cfg.fn)
    else none
  | .off, .window => some (offVerdict r)
  | .off, .onPhase => some (.plain (some .stray))
  | .flashing, .onPhase =>
    some (if r.findings = .none then .plain .none
      else { Verdict.plain (some .cadence) with findings := r.findings })
  | .flashing, .missedFlash => some (s.noSupply k.cfg.fn)
  | .on, .onPhase => none
  | .on, .missedFlash => none
  | .off, .missedFlash => none
  | .flashing, .window => none

/-- R62: the verdict of a record that passed the settle rule. -/
def State.verdict (s : State) (k : Circuit) (r : Rec) (expected : FnState) : Option Verdict :=
  match k.cfg.kind with
  | .incandescent => s.lampVerdict k r expected
  | .led => s.lampVerdict k r expected
  | .feed => s.feedVerdict k r expected
  | .notFitted => none

/-- R63, R83: what a verdict shows its filter. -/
def Verdict.evidence (v : Verdict) : Evidence := ⟨v.kind, v.lamp.map LampStages.m, v.attribution, v.front, none⟩

/-! ## Current balance -/

/-- R168: a ranked peer's circuit of F in the balance. -/
def CircuitReport.balances (c : CircuitReport) (f : LampFn) : Bool := c.fn == f && c.kind.isLamp

/-- R161, R168, R169: the entries in slots 1..7. -/
def Roster.peers (r : Roster) : List RosterEntry :=
  (allCirc.filter fun x => x != 0).filterMap fun x => r.slots[x]

/-- R168: some circuit of F is reported unjudged. -/
def RosterEntry.unjudged (e : RosterEntry) (f : LampFn) : Bool :=
  allCirc.any fun c => e.report.circuits[c].balances f && !e.report.circuits[c].judged

/-- R168: the first thin reason that holds; `clean` says whether the feed window was judged clean against ON. -/
def State.thinReason (s : State) (f : LampFn) (clean : Bool) : Option ThinReason :=
  if !clean then some .feed
  else if s.coasting then some .coast
  else if !s.roster.unplaced.isEmpty then some .unplaced
  else if s.balance.unlistedAt.isSome then some .unlisted
  else if s.roster.peers.any fun e => !e.isFresh then some .stale
  else if s.roster.peers.any (·.unjudged f) then some .unjudged
  else none

/-- R169: the current of F that one entry reports. -/
def RosterEntry.current (e : RosterEntry) (f : LampFn) : Nat :=
  (allCirc.map fun c => if e.report.circuits[c].balances f then e.report.circuits[c].mean else 0).sum

/-- R169: Σ. -/
def Roster.current (r : Roster) (f : LampFn) : Nat := (r.peers.map (·.current f)).sum

/-- R170: T. -/
def balanceThreshold (ihead : Nat) : Nat := max 300 ((ihead + 5) / 10)

/-- R170: the result of two sums. -/
def balanceOf (ihead sum : Nat) : BalanceResult :=
  let f : BalanceFigures := ⟨ihead, sum, (ihead : Int) - sum, balanceThreshold ihead⟩
  if f.diff > f.threshold then .leakage .sink f
  else if f.diff < -(f.threshold : Int) then .leakage .source f
  else .clean f

/-- R168 to R170: the balance record of F formed now. -/
def State.balanceRecord (s : State) (f : LampFn) (clean : Bool) (ihead : Nat) : BalanceRecord :=
  ⟨match s.thinReason f clean with
    | some why => .thin why
    | none => balanceOf ihead (s.roster.current f), s.now⟩

/-- R84, R89: what a balance record shows its filter; a thin one shows nothing. -/
def BalanceResult.evidence : BalanceResult → Option Evidence
  | .leakage sg _ => some ⟨some .leakage, none, none, none, some sg⟩
  | .clean _ => some ⟨none, none, none, none, none⟩
  | .thin _ => none

/-- R171: a balance record becomes its function's result and is handed to the balance filter. -/
def State.keepBalance (s : State) (f : LampFn) (b : BalanceRecord) : State :=
  let s := { s with balance := { s.balance with results := put s.balance.results f.idx (some b) } }
  match b.result.evidence with
  | none => s
  | some e =>
    let (g, outs) := s.balance.filters[f.idx].take e
    outs.foldl (State.balanceOutcome f g.sign)
      { s with balance := { s.balance with filters := put s.balance.filters f.idx g } }

/-! ## A record taken (R46) -/

/-- R46: a queued record is due. -/
def Rec.due (r : Rec) (now : Ms) : Bool := decide (r.finish + 300 ≤ now)

/-- R84, R91: an applied verdict taken by the circuit's filter; on the head its outcomes go to the fault list. -/
def State.applyFilter (s : State) (c : Circ) (v : Verdict) : State :=
  let k := s.circuits[c]
  let (g, outs) := k.filter.take v.evidence
  let s := s.setC c { k with filter := g }
  if s.isHead then outs.foldl (State.headOutcome c) s else s

/-- R46 step 3, R60, R74: a verdict applied, unless the station coasts. -/
def State.applyVerdict (s : State) (c : Circ) (v : Option Verdict) : State :=
  match v with
  | none => s
  | some v =>
    if s.coasting then s
    else
      let s := s.applyFilter c v
      match v.lamp with
      | none => s
      | some st => s.handSample c st.inorm

/-- R47: the record becomes its circuit's last record. -/
def State.keepLast (s : State) (c : Circ) (r : Rec) (v : Option Verdict) : State :=
  s.setC c { s.circuits[c] with last := some ⟨r.kind, meanOf r.sumI r.n, v⟩ }

/-- R167: a WINDOW record of a steady function's balance feed forms a balance record. -/
def State.formBalance (s : State) (c : Circ) (r : Rec) (clean : Bool) : State :=
  let f := s.circuits[c].cfg.fn
  if s.balanceFeed f = some c && !f.isTurn && r.kind == .window then
    s.keepBalance f (s.balanceRecord f clean (meanOf r.sumI r.n))
  else s

/-- R78, R168: the verdict is clean against ON. -/
def cleanAgainstOn (expected : Option FnState) (v : Option Verdict) : Bool :=
  expected == some .on && (v.map Verdict.kind) == some none

/-- R46, R47, R167: the record r of circuit c, taken for judgement. -/
def State.judge (s : State) (c : Circ) (r : Rec) : State :=
  let k := s.circuits[c]
  let s := s.setC c { k with queue := k.queue.eraseP (·.due s.now) }
  let expected := settled s.ring k.cfg.fn r.start r.finish
  let v := expected.bind (s.verdict k r)
  ((s.applyVerdict c v).keepLast c r v).formBalance c r (cleanAgainstOn expected v)

end Sys2Proof.Machine
end

