-- ==== Sys2Proof/Machine/TrackingRows.lean ====
section
/-! DEFINITION. The timed rows of one circuit (chapters 2, 3, 6): MISSED_FLASH, SILENCE_DEADLINE, LINGER_END,
WINDOW_CLOSE, HELD_ON_CLOSE, TAKEN_FOR_JUDGEMENT, LEARN_DEADLINE; and STORE_WRITE_END. -/

namespace Sys2Proof.Machine

/-- A moment that the count has reached. -/
def reached (at_ : Option Ms) (now : Ms) : Bool :=
  match at_ with
  | none => false
  | some t => decide (t ≤ now)

/-! ## What is due -/

/-- R32: a LOCKED tracker's compare time is reached. -/
def Circuit.missDue (k : Circuit) (now : Ms) : Bool := k.tracker.locked && reached k.tracker.compareAt now

/-- R34: an UNLOCKED, ACTIVE tracker's silence deadline is reached. -/
def Circuit.silenceDue (k : Circuit) (now : Ms) : Bool :=
  !k.tracker.locked && k.tracker.activity == .active && reached k.tracker.silenceAt now

/-- R27: a LINGERING tracker's linger end is reached. -/
def Circuit.lingerDue (k : Circuit) (now : Ms) : Bool :=
  k.tracker.activity == .lingering && reached k.tracker.lingerAt now

/-- R42: the open window that has reached its end. -/
def Circuit.endedWindow (k : Circuit) (now : Ms) : Option Rec :=
  k.opened.filter fun r => r.kind == .window && decide (r.windowEnd ≤ now)

/-- R43: the ON-phase record that has been open for 2000 ms. -/
def Circuit.heldOnRecord (k : Circuit) (now : Ms) : Option Rec :=
  k.opened.filter fun r => r.kind == .onPhase && decide (r.start + 2000 ≤ now)

/-- R46: the first queued record that is due. -/
def Circuit.dueRecord (k : Circuit) (now : Ms) : Option Rec := k.queue.find? (·.due now)

/-- R105: a LEARNING circuit's learn deadline is reached. -/
def Circuit.learnDue (k : Circuit) (now : Ms) : Bool := k.ref.learn == .learning && reached k.ref.deadline now

/-- R110: the write in progress that has taken its 10 ms. -/
def State.endedWrite (s : State) : Option StoreWrite := s.writes.current.filter fun w => decide (w.finish ≤ s.now)

/-! ## The rows -/

/-- MISSED_FLASH (R32). -/
def execMissedFlash (c : Circ) (s : State) : Host.Outcome State Fault Refusal :=
  let k := s.circuits[c]
  .next (if k.missDue s.now then
    reevaluatePeriod s (s.setC c (k.missFlash (k.tracker.compareAt.getD 0) s.now)) else s)

/-- SILENCE_DEADLINE (R34). -/
def execSilenceDeadline (c : Circ) (s : State) : Host.Outcome State Fault Refusal :=
  let k := s.circuits[c]
  .next (if k.silenceDue s.now then s.setC c (k.silence (k.tracker.silenceAt.getD 0)) else s)

/-- LINGER_END (R27). -/
def execLingerEnd (c : Circ) (s : State) : Host.Outcome State Fault Refusal :=
  let k := s.circuits[c]
  .next (if k.lingerDue s.now then reevaluatePeriod s (s.setC c (k.fallDormant s.now)) else s)

/-- WINDOW_CLOSE (R42). -/
def execWindowClose (c : Circ) (s : State) : Host.Outcome State Fault Refusal :=
  let k := s.circuits[c]
  .next (match k.endedWindow s.now with
    | some r => s.setC c (k.closeWindow r)
    | none => s)

/-- HELD_ON_CLOSE (R43). -/
def execHeldOnClose (c : Circ) (s : State) : Host.Outcome State Fault Refusal :=
  let k := s.circuits[c]
  .next (match k.heldOnRecord s.now with
    | some r => s.setC c (k.closeHeldOn r)
    | none => s)

/-- TAKEN_FOR_JUDGEMENT (R46). -/
def execTakenForJudgement (c : Circ) (s : State) : Host.Outcome State Fault Refusal :=
  .next (match s.circuits[c].dueRecord s.now with
    | some r => announce s (s.judge c r)
    | none => s)

/-- LEARN_DEADLINE (R105). -/
def execLearnDeadline (c : Circ) (s : State) : Host.Outcome State Fault Refusal :=
  let k := s.circuits[c]
  .next (if k.learnDue s.now then announce s (s.setC c { k with ref := k.ref.fail .failedNotLit }) else s)

/-- STORE_WRITE_END (R110). -/
def execStoreWriteEnd (readback : List Byte) (s : State) : Host.Outcome State Fault Refusal :=
  .next (match s.endedWrite with
    | some w => s.endWrite w readback
    | none => s)

end Sys2Proof.Machine
end

