-- ==== Sys2Proof/Machine/RankRows.lean ====
section
/-! DEFINITION. The rows of the rank line (chapter 8): REAR_BURST_START, REAR_PULSE, FRONT_HIGH_STRETCH, BURST_END,
RANK_SILENCE_DEADLINE. -/

namespace Sys2Proof.Machine

/-- R140: a multiple of 100 ms is reached. -/
def State.rearDue (s : State) : Bool := decide (s.rear.next ≤ s.now)

/-- R140: the burst whose next edge is due. -/
def State.edgeDue (s : State) : Option RearBurst := s.rear.burst.filter fun b => decide (b.edgeAt ≤ s.now)

/-- R144. -/
def State.silenceDue (s : State) : Bool := !s.isHead && reached s.rank.silenceAt s.now

/-- REAR_BURST_START (R140). -/
def execRearBurstStart (s : State) : Host.Outcome State Fault Refusal :=
  .next (if s.rearDue then { s with rear := s.rear.start s.rank.state } else s)

/-- REAR_PULSE (R140). -/
def execRearPulse (s : State) : Host.Outcome State Fault Refusal :=
  .next (match s.edgeDue with
    | none => s
    | some b => { s with rear := s.rear.drive b })

/-- FRONT_HIGH_STRETCH (R141): a head ignores FRONT. -/
def execFrontHighStretch (us : Nat) (s : State) : Host.Outcome State Fault Refusal :=
  .next (if s.isHead then s
    else { s with rank := { s.rank with openBurst := frontStretch s.rank.openBurst us s.ticks } })

/-- BURST_END (R141, R143, R145). -/
def execBurstEnd (s : State) : Host.Outcome State Fault Refusal :=
  .next (match s.endedBurst with
    | none => s
    | some b => announce s (s.setRank (s.rank.endBurst b s.now)))

/-- RANK_SILENCE_DEADLINE (R144, R145). -/
def execRankSilenceDeadline (s : State) : Host.Outcome State Fault Refusal :=
  .next (if s.silenceDue then announce s (s.setRank s.rank.silent) else s)

end Sys2Proof.Machine
end

