-- ==== Sys2Proof/Machine/ResetRows.lean ====
section
/-! DEFINITION. The row START_UP_RESET. -/

namespace Sys2Proof.Machine

/-- START_UP_RESET (R25): power-on, RESETn or a supply collapse. -/
def execStartUpReset (s : State) : Host.Outcome State Fault Refusal := .next s.startUp

end Sys2Proof.Machine
end

