-- ==== Sys2Proof/Machine/SensingRows.lean ====
section
/-! DEFINITION. The rows of the sense converter (chapter 1; R57, R211): SCAN_STEP, PAIR_END, SUPPLY_CONVERSION_END,
VOLTAGE_RE_CONVERSION_END, SPOT_PAIR_END. Each but the first concerns the grant in progress. -/

namespace Sys2Proof.Machine

/-! ## What is due -/

/-- R12: a scan step falls due. -/
def State.scanDue (s : State) : Bool := decide (s.conv.scanDue ≤ s.ticks) && s.conv.scanWaiting.isNone

/-- R8, R9: the granted job, when its operation has ended. -/
def State.endedJob (s : State) : Option Job :=
  if s.conversionDone then s.conv.grant.map Grant.job else none

/-- R8: the stamp of the operation granted, the count at its start. -/
def State.stamp (s : State) : Ms := (s.conv.grant.map Grant.start).getD 0 / 8

/-! ## SCAN_STEP -/

/-- R12, R13: step k at position k mod 8 requests the pair of its circuit; the next falls due 1.25 ms later. -/
def State.requestScan (s : State) : State :=
  State.arbitrate { s with conv := { s.conv with
    scanWaiting := some s.conv.scanPos, scanPos := s.conv.scanPos + 1, scanDue := s.conv.scanDue + 10 } }

/-- SCAN_STEP (R12). -/
def execScanStep (s : State) : Host.Outcome State Fault Refusal := .next (if s.scanDue then s.requestScan else s)

/-! ## PAIR_END -/

/-- R16: a voltage crosses the threshold of the energized state. -/
def crosses (energized : Bool) (vm : Nat) : Bool := if energized then decide (vm ≤ 6000) else decide (12000 ≤ vm)

/-- R19: a sample that causes no crossing is settled. -/
def Circuit.settles (k : Circuit) (stamp : Ms) : Bool :=
  k.energized && (match k.lastOn with
    | none => true
    | some q => decide (q + k.cfg.kind.blanking ≤ stamp))

/-- R19, R20: a settled sample added to the record being built. -/
def Circuit.addSample (k : Circuit) (vm im : Nat) : Circuit := { k with opened := k.opened.map (·.add vm im) }

/-- R15, R16, R19: a scan sample of circuit c. -/
def State.takeSample (s : State) (c : Circ) (vm im : Nat) (stamp : Ms) : State :=
  let k := s.circuits[c]
  if !k.cfg.kind.isFitted then s
  else if crosses k.energized vm then
    { s.setC c { k with pendingSample := some ⟨vm, im, stamp⟩ } with
      conv := { s.conv with
        confirmQueue := if s.conv.confirmQueue.contains c then s.conv.confirmQueue else s.conv.confirmQueue ++ [c] } }
  else if k.settles stamp then s.setC c (k.addSample vm im)
  else s

/-- R12: the pair of the position-0 step is followed by the supply conversion within the same grant. -/
def State.afterPair (s : State) (c : Circ) : State :=
  if c = 0 then { s with conv := { s.conv with grant := some ⟨.supply, s.ticks⟩ } } else s.release

/-- PAIR_END (R15). -/
def execPairEnd (v i : BitVec 12) (s : State) : Host.Outcome State Fault Refusal :=
  .next <|
    match s.endedJob with
    | some (.scanPair c) => (s.takeSample c (millivolts v) (milliamps i) s.stamp).afterPair c
    | some (.confirm _) => s
    | some (.spotPair _) => s
    | some .supply => s
    | none => s

/-! ## SUPPLY_CONVERSION_END -/

/-- R57: a supply reading extends or breaks the run that would change LOW SUPPLY. -/
def LowSupply.read (l : LowSupply) (mv : Nat) (stamp : Ms) : LowSupply :=
  let runs := if l.active then decide (19000 ≤ mv) else decide (mv < 18000)
  if runs then
    if l.runStart.getD stamp + 100 ≤ stamp then ⟨!l.active, none⟩ else ⟨l.active, some (l.runStart.getD stamp)⟩
  else ⟨l.active, none⟩

/-- R14: a supply reading replaces Vs and moves LOW SUPPLY. -/
def State.readSupply (s : State) (mv : Nat) (stamp : Ms) : State :=
  { s with vs := some mv, lowSupply := s.lowSupply.read mv stamp }

/-- SUPPLY_CONVERSION_END (R14). -/
def execSupplyConversionEnd (v : BitVec 12) (s : State) : Host.Outcome State Fault Refusal :=
  .next <|
    match s.endedJob with
    | some .supply => announce s (coastEdge s (s.readSupply (millivolts v) s.stamp)).release
    | some (.confirm _) => s
    | some (.spotPair _) => s
    | some (.scanPair _) => s
    | none => s

/-! ## VOLTAGE_RE_CONVERSION_END -/

/-- R17, R37: the edge of a confirmed crossing is taken, and the head looks at its reported period again. -/
def State.edgeTaken (s : State) (c : Circ) (stamp : Ms) : State :=
  let k := s.circuits[c]
  reevaluatePeriod s (s.setC c (k.takeEdge stamp (!k.energized) s.noteReference s.now))

/-- R18: the edge is dropped. -/
def Circuit.dropEdge (k : Circuit) : Circuit := { k with pendingSample := none, glitch := satInc 65535 k.glitch }

/-- R17, R18: a re-conversion of circuit c decides its pending sample. -/
def State.confirmEdge (s : State) (c : Circ) (vm : Nat) : State :=
  let k := s.circuits[c]
  match k.pendingSample with
  | none => s
  | some p => if crosses k.energized vm then s.edgeTaken c p.stamp else s.setC c k.dropEdge

/-- VOLTAGE_RE_CONVERSION_END (R17). -/
def execVoltageReConversionEnd (v : BitVec 12) (s : State) : Host.Outcome State Fault Refusal :=
  .next <|
    match s.endedJob with
    | some (.confirm c) => announce s (s.confirmEdge c (millivolts v)).release
    | some (.spotPair _) => s
    | some (.scanPair _) => s
    | some .supply => s
    | none => s

/-! ## SPOT_PAIR_END -/

/-- R11, R211: a spot pair of circuit c counts only for a reading of that circuit. -/
def State.takeSpotPair (s : State) (c : Circ) (vm im : Nat) : State :=
  match s.spot.reading with
  | none => s
  | some r => if r.circuit = c then s.addSpotPair r vm im else s

/-- SPOT_PAIR_END (R211). -/
def execSpotPairEnd (v i : BitVec 12) (s : State) : Host.Outcome State Fault Refusal :=
  .next <|
    match s.endedJob with
    | some (.spotPair c) => (s.takeSpotPair c (millivolts v) (milliamps i)).release
    | some (.confirm _) => s
    | some (.scanPair _) => s
    | some .supply => s
    | none => s

end Sys2Proof.Machine
end

