-- ==== Sys2Proof/Machine/TelegramRows.lean ====
section
/-! DEFINITION. The rows of the receiver (chapter 7): CANDIDATE_START, BAD_TELEGRAM and the five good telegrams. A
telegram row is one that is not the station's own (DESIGN CHOICE, log entry 28). -/

namespace Sys2Proof.Machine

/-- R119: the receiver after a candidate start. -/
def Receiver.hear (x : Receiver) (r : Option Rate) : Receiver :=
  match x, r with
  | .hunt, some r => .verify r false
  | .hunt, none => .hunt
  | .verify r passed, _ => .verify r passed
  | .synced r, _ => .synced r

/-- CANDIDATE_START (R119): a dominant edge, so the counts of the line go back to 0 (R116). -/
def execCandidateStart (quietNs widthNs : Nat) (driving : Bool) (char : RxChar) (s : State) :
    Host.Outcome State Fault Refusal :=
  .next { s with link := { s.link.recount with
    receiver := s.link.receiver.hear (candidateRate quietNs widthNs driving char) } }

/-- BAD_TELEGRAM (R120, R122). -/
def execBadTelegram (chars : List RxChar) (s : State) : Host.Outcome State Fault Refusal :=
  .next (match rxTest chars with
    | .bad _ k => { s with link := (s.link.bad k).recount }
    | .good _ _ _ => s)

/-- COMMAND_TELEGRAM (R51, R155). -/
def execCommandTelegram (h : RxHeader) (p : BitVec 64) (s : State) : Host.Outcome State Fault Refusal :=
  .next (announce s (s.arrive .command (CommandContent.decode p) fun s c => s.takeCommand h c))

/-- LEARN_TELEGRAM (R99). -/
def execLearnTelegram (h : RxHeader) (p : BitVec 24) (s : State) : Host.Outcome State Fault Refusal :=
  .next (announce s (s.arrive .learn (some p) fun s p =>
    if s.actsOnLearn h (p.extractLsb' 0 8) (p.extractLsb' 8 8) then
      s.actOnLearn (p.extractLsb' 0 8) (p.extractLsb' 16 8)
    else s))

/-- QUERY_TELEGRAM (R124). -/
def execQueryTelegram (h : RxHeader) (p : BitVec 24) (s : State) : Host.Outcome State Fault Refusal :=
  .next (s.arrive .query (queryDecode p) fun s q =>
    if s.answersQuery h q.2.1 then s.startReading q.1 q.2.2 else s)

/-- READING_TELEGRAM (R210). -/
def execReadingTelegram (h : RxHeader) (p : BitVec 104) (s : State) : Host.Outcome State Fault Refusal :=
  .next (s.arrive .reading (readingDecode p) fun s r =>
    if s.isHead then s.takeReading h.serial r.1 r.2.1 r.2.2 else s)

/-- STATUS_TELEGRAM (R150). -/
def execStatusTelegram (h : RxHeader) (p : BitVec 288) (s : State) : Host.Outcome State Fault Refusal :=
  .next (s.arrive .status (Report.decode p) fun s rep => s.takeStatus h rep)

end Sys2Proof.Machine
end

