-- ==== Sys2Proof/Machine/TimerRows.lean ====
section
/-! DEFINITION. The timed rows of the whole station: INTENT_DEBOUNCE, RE_SEND_TIMER, STALENESS_TIMER,
HEAD_CLASH_DEADLINE, ROSTER_EXPIRY, WARN_BLINK_HALF, TRAIN_SECONDS, UNLISTED_DEADLINE, ALONE_TIMER, STATUS_TIMER,
HOLDOFF, LEARN_TRACKER_DEADLINE, QUERY_DEADLINE. -/

namespace Sys2Proof.Machine

/-! ## What is due -/

/-- R48: a line's count has reached 30. -/
def State.debounceDue (s : State) (line : IntentLine) : Bool :=
  s.isHead && (match line with
    | .int f => decide (30 ≤ s.intent.counts[f])
    | .crank => decide (30 ≤ s.intent.crankCount))

/-- R49. -/
def State.reSendDue (s : State) : Bool := s.isHead && decide (s.source.resendAt ≤ s.now)

/-- R53. -/
def State.stalenessDue (s : State) : Bool := !s.isHead && reached s.cmd.staleAt s.now

/-- R195: BLINK's present half has lasted 500 ms. -/
def State.blinkDue (s : State) : Bool := s.warn.state == .blink && reached s.warn.toggleAt s.now

/-- R176. -/
def State.secondDue (s : State) : Bool := s.isHead && decide (s.secondAt ≤ s.now)

/-- R125: the ALONE timer expires while LISTENING. -/
def State.aloneDue (s : State) : Bool := s.link.presence == .listening && reached s.link.aloneAt s.now

/-- R136. -/
def State.statusDue (s : State) : Bool := decide (s.tell.statusAt ≤ s.now)

/-- R136. -/
def State.holdoffDue (s : State) : Bool := s.tell.waiting && decide (s.tell.holdoffAt ≤ s.now)

/-- R208: a tracked station that has not started and whose deadline is reached. -/
def State.trackedDue (s : State) (n : Serial) : Bool :=
  s.learner.tracked.any fun t => t.serial == n && !t.started && decide (t.deadline ≤ s.now)

/-- R210: the outstanding query, when its deadline is reached. -/
def State.dueQuery (s : State) : Option Query := s.query.outstanding.filter fun q => decide (q.deadline ≤ s.now)

/-! ## Intent and commands -/

/-- R48: a line's debounced value changes and its count restarts. -/
def IntentSampler.flip (x : IntentSampler) (line : IntentLine) : IntentSampler :=
  match line with
  | .int f => { x with debounced := put x.debounced f (!x.debounced[f]), counts := put x.counts f 0 }
  | .crank => { x with crank := !x.crank, crankCount := 0 }

/-- INTENT_DEBOUNCE (R48, R49). -/
def execIntentDebounce (line : IntentLine) (s : State) : Host.Outcome State Fault Refusal :=
  .next (if s.debounceDue line then
    announce s (coastEdge s (State.epochChange { s with intent := s.intent.flip line })) else s)

/-- RE_SEND_TIMER (R49). -/
def execReSendTimer (s : State) : Host.Outcome State Fault Refusal :=
  .next (if s.reSendDue then s.queueCommand else s)

/-- STALENESS_TIMER (R53). -/
def execStalenessTimer (s : State) : Host.Outcome State Fault Refusal :=
  .next (if s.stalenessDue then announce s { s with cmd := { s.cmd with staleAt := none } } else s)

/-- HEAD_CLASH_DEADLINE (R155). On the head the coast event precedes the fault list's (DESIGN CHOICE, log entry 25). -/
def execHeadClashDeadline (s : State) : Host.Outcome State Fault Refusal :=
  .next (if reached s.headClashAt s.now then
    let s' := coastEdge s { s with headClashAt := none, tell := { s.tell with clashEnd := some s.now } }
    announce s (if s.isHead then s'.headClashInput false else s') else s)

/-! ## Roster, fault list, train-seconds, balance -/

/-- ROSTER_EXPIRY (R152). -/
def execRosterExpiry (place : RosterPlace) (s : State) : Host.Outcome State Fault Refusal :=
  .next (match s.expired place with
    | none => s
    | some e =>
      match place with
      | .slot r => s.expireSlot r e
      | .unplaced i => s.expireUnplaced i.val e)

/-- WARN_BLINK_HALF (R195). -/
def execWarnBlinkHalf (s : State) : Host.Outcome State Fault Refusal :=
  .next (if s.blinkDue then
    { s with warn := { s.warn with pin := !s.warn.pin, toggleAt := s.warn.toggleAt.map (· + 500) } } else s)

/-- TRAIN_SECONDS (R176). -/
def execTrainSeconds (s : State) : Host.Outcome State Fault Refusal :=
  .next (if s.secondDue then { s with trainSeconds := s.trainSeconds + 1, secondAt := s.secondAt + 1000 } else s)

/-- UNLISTED_DEADLINE (R172). -/
def execUnlistedDeadline (s : State) : Host.Outcome State Fault Refusal :=
  .next (if reached s.balance.unlistedAt s.now then { s with balance := { s.balance with unlistedAt := none } } else s)

/-! ## Link timers and telling -/

/-- ALONE_TIMER (R125). -/
def execAloneTimer (s : State) : Host.Outcome State Fault Refusal :=
  .next (if s.aloneDue then
    { s with link := { s.link with presence := .alone s.cfg.strapRate, aloneAt := none } } else s)

/-- STATUS_TIMER (R136); a change at this same moment is included (DEDUCED, log entry 19). -/
def execStatusTimer (s : State) : Host.Outcome State Fault Refusal :=
  .next (if s.statusDue then State.queueStatus { s with tell := { s.tell with expiredAt := some s.now } } else s)

/-- HOLDOFF (R136). -/
def execHoldoff (s : State) : Host.Outcome State Fault Refusal := .next (if s.holdoffDue then s.queueStatus else s)

/-! ## Learn tracker and query engine -/

/-- LEARN_TRACKER_DEADLINE (R208). -/
def execLearnTrackerDeadline (serial : Serial) (s : State) : Host.Outcome State Fault Refusal :=
  .next (if s.trackedDue serial then s.untrack serial .notStarted else s)

/-- R210: the query times out; a waiting QUERY is discarded. -/
def State.timeOutQuery (s : State) (q : Query) : State :=
  State.raise { s with query := { s.query with outstanding := none, waiting := none, result := .timeout q } }
    (.spotDone q.serial q.tag true)

/-- QUERY_DEADLINE (R210). -/
def execQueryDeadline (s : State) : Host.Outcome State Fault Refusal :=
  .next (match s.dueQuery with
    | none => s
    | some q => s.timeOutQuery q)

end Sys2Proof.Machine
end

