-- ==== Sys2Proof/Machine/TransmitRows.lean ====
section
/-! DEFINITION. The rows of the transmitter and its guards (chapter 7): SEND_ATTEMPT, YIELD, DRIVE_FAULT, COMPLETION,
CUT_OFF, CUT_OFF_RECOVERY, LINE_STUCK, LINE_STUCK_HOLD_END. Each stretch is measured at `State.lineRate`, and the three
counts of the link hold what a row measured (DESIGN CHOICE, log entry 6). -/

namespace Sys2Proof.Machine

/-- SEND_ATTEMPT (R129): an attempt begins, and its first dominant bit sets the gap count back to 0; otherwise the gap
count stands at the stretch measured, and no dominant stretch is open. -/
def execSendAttempt (quietNs : Nat) (s : State) : Host.Outcome State Fault Refusal :=
  .next (match s.attempt quietNs with
    | some a => { s with link := { s.link.letGo with tx := .sending a } }
    | none => { s with link := { s.link.letGo with gapNs := quietNs } })

/-- YIELD (R130): the driver is released, and from then the line monitor counts the stretch (R135). -/
def execYieldLine (line : List Bool) (s : State) : Host.Outcome State Fault Refusal :=
  .next (if s.readBack line = some true then { s with link := { s.link.letGo with tx := .yielded } } else s)

/-- DRIVE_FAULT (R130). -/
def execDriveFault (line : List Bool) (s : State) : Host.Outcome State Fault Refusal :=
  .next (if s.readBack line = some false then
    { s with link := { s.link.letGo with tx := .yielded, driveFaults := satInc 65535 s.link.driveFaults } } else s)

/-- COMPLETION (R132). -/
def execCompletion (s : State) : Host.Outcome State Fault Refusal :=
  .next (match s.link.tx with
    | .sending a => s.complete a
    | .idle => s
    | .waitGap => s
    | .yielded => s
    | .cutOff => s
    | .latchedOff => s)

/-- CUT_OFF (R133): below 12 bit times the guard only measures. -/
def execCutOff (ns : Nat) (s : State) : Host.Outcome State Fault Refusal :=
  .next (if s.link.tx.drivable then
    if s.lineRate.reached ns 12 then { s with link := s.link.cut s.now, flags := { s.flags with txCutoff := true } }
    else { s with link := { s.link.recount with driverNs := ns } }
  else s)

/-- CUT_OFF_RECOVERY (R134). -/
def execCutOffRecovery (ms : Nat) (s : State) : Host.Outcome State Fault Refusal :=
  .next (if s.link.tx = .cutOff ∧ 1000 ≤ ms then { s with link := { s.link with tx := s.link.slots.rest } } else s)

/-- LINE_STUCK (R135): while the own driver is released; up to 24 bit times the monitor only measures. -/
def execLineStuck (ns : Nat) (s : State) : Host.Outcome State Fault Refusal :=
  .next (if s.link.tx.isSending then s
    else if s.lineRate.passed ns 24 then
      { s with
        link := { s.link.letGo with stuckHold := true, lineNs := ns }, flags := { s.flags with lineStuck := true } }
    else { s with link := { s.link.letGo with lineNs := ns } })

/-- LINE_STUCK_HOLD_END (R135): the line has been recessive for `ms`; after 10 ms of it a hold ends. -/
def execLineStuckHoldEnd (ms : Nat) (s : State) : Host.Outcome State Fault Refusal :=
  .next { s with link := { s.link.letGo with stuckHold := s.link.stuckHold && ms < 10, gapNs := ms * 1000000 } }

end Sys2Proof.Machine
end

