-- ==== Sys2Proof/Machine/Dispatch.lean ====
section
/-! DEFINITION. Which meaning each command has. -/

namespace Sys2Proof.Machine

/-- The effect of a command on everything but the queue. -/
def exec (i : Instr) (s : State) : Host.Outcome State Fault Refusal :=
  match i with
  | .startUpReset => Sys2Proof.Machine.execStartUpReset s
  | .scanStep => Sys2Proof.Machine.execScanStep s
  | .pairEnd v a => Sys2Proof.Machine.execPairEnd v a s
  | .supplyConversionEnd v => Sys2Proof.Machine.execSupplyConversionEnd v s
  | .voltageReConversionEnd v => Sys2Proof.Machine.execVoltageReConversionEnd v s
  | .spotPairEnd v a => Sys2Proof.Machine.execSpotPairEnd v a s
  | .missedFlash c => Sys2Proof.Machine.execMissedFlash c s
  | .silenceDeadline c => Sys2Proof.Machine.execSilenceDeadline c s
  | .lingerEnd c => Sys2Proof.Machine.execLingerEnd c s
  | .windowClose c => Sys2Proof.Machine.execWindowClose c s
  | .heldOnClose c => Sys2Proof.Machine.execHeldOnClose c s
  | .takenForJudgement c => Sys2Proof.Machine.execTakenForJudgement c s
  | .learnDeadline c => Sys2Proof.Machine.execLearnDeadline c s
  | .storeWriteEnd readback => Sys2Proof.Machine.execStoreWriteEnd readback s
  | .intentDebounce line => Sys2Proof.Machine.execIntentDebounce line s
  | .reSendTimer => Sys2Proof.Machine.execReSendTimer s
  | .stalenessTimer => Sys2Proof.Machine.execStalenessTimer s
  | .candidateStart quietNs widthNs driving char => Sys2Proof.Machine.execCandidateStart quietNs widthNs driving char s
  | .badTelegram chars => Sys2Proof.Machine.execBadTelegram chars s
  | .commandTelegram h p => Sys2Proof.Machine.execCommandTelegram h p s
  | .learnTelegram h p => Sys2Proof.Machine.execLearnTelegram h p s
  | .queryTelegram h p => Sys2Proof.Machine.execQueryTelegram h p s
  | .readingTelegram h p => Sys2Proof.Machine.execReadingTelegram h p s
  | .statusTelegram h p => Sys2Proof.Machine.execStatusTelegram h p s
  | .headClashDeadline => Sys2Proof.Machine.execHeadClashDeadline s
  | .rosterExpiry place => Sys2Proof.Machine.execRosterExpiry place s
  | .warnBlinkHalf => Sys2Proof.Machine.execWarnBlinkHalf s
  | .trainSeconds => Sys2Proof.Machine.execTrainSeconds s
  | .unlistedDeadline => Sys2Proof.Machine.execUnlistedDeadline s
  | .aloneTimer => Sys2Proof.Machine.execAloneTimer s
  | .sendAttempt quietNs => Sys2Proof.Machine.execSendAttempt quietNs s
  | .yieldLine line => Sys2Proof.Machine.execYieldLine line s
  | .driveFault line => Sys2Proof.Machine.execDriveFault line s
  | .completion => Sys2Proof.Machine.execCompletion s
  | .cutOff bits => Sys2Proof.Machine.execCutOff bits s
  | .cutOffRecovery ms => Sys2Proof.Machine.execCutOffRecovery ms s
  | .lineStuck bits => Sys2Proof.Machine.execLineStuck bits s
  | .lineStuckHoldEnd ms => Sys2Proof.Machine.execLineStuckHoldEnd ms s
  | .statusTimer => Sys2Proof.Machine.execStatusTimer s
  | .holdoff => Sys2Proof.Machine.execHoldoff s
  | .rearBurstStart => Sys2Proof.Machine.execRearBurstStart s
  | .frontHighStretch us => Sys2Proof.Machine.execFrontHighStretch us s
  | .burstEnd => Sys2Proof.Machine.execBurstEnd s
  | .rankSilenceDeadline => Sys2Proof.Machine.execRankSilenceDeadline s
  | .learnTrackerDeadline serial => Sys2Proof.Machine.execLearnTrackerDeadline serial s
  | .queryDeadline => Sys2Proof.Machine.execQueryDeadline s
  | .frameStart => Sys2Proof.Machine.execFrameStart s
  | .badFrame => Sys2Proof.Machine.execBadFrame s
  | .unknown code => Sys2Proof.Machine.execUnknown code s
  | .status => Sys2Proof.Machine.execStatus s
  | .event => Sys2Proof.Machine.execEvent s
  | .entry index => Sys2Proof.Machine.execEntry index s
  | .ack index serial => Sys2Proof.Machine.execAck index serial s
  | .ackAll => Sys2Proof.Machine.execAckAll s
  | .clearFlags mask => Sys2Proof.Machine.execClearFlags mask s
  | .learn stations circuits => Sys2Proof.Machine.execLearn stations circuits s
  | .spot rank circuit => Sys2Proof.Machine.execSpot rank circuit s
  | .spotResult => Sys2Proof.Machine.execSpotResult s
  | .roster position => Sys2Proof.Machine.execRoster position s
  | .localRead circuit => Sys2Proof.Machine.execLocalRead circuit s
  | .tallies => Sys2Proof.Machine.execTallies s
  | .restart => Sys2Proof.Machine.execRestart s
  | .storeConfig block => Sys2Proof.Machine.execStoreConfig block s
  | .rearPulse => Sys2Proof.Machine.execRearPulse s

end Sys2Proof.Machine
end

