-- ==== Sys2Proof/Machine/Due.lean ====
section
/-! DEFINITION. The time-driven rows that are due on an idle station, in the table's order (log entries 1 and 7), and
what becomes of a word put in front of the queue. -/

namespace Sys2Proof.Machine

/-- A row offered when a condition holds. -/
def offer (p : Bool) (i : Instr) : List Instr := if p then [i] else []

/-- The circuits of which a condition holds, each offering a row. -/
def offerEach (p : Circ → Bool) (i : Circ → Instr) : List Instr := (allCirc.filter p).map i

/-- R8: the row of a finished operation, with the codes the pins convert to. -/
def State.conversionRow (s : State) : List Instr :=
  match s.endedJob with
  | some (.scanPair c) => [.pairEnd s.pins.senseV[c] s.pins.senseI[c]]
  | some .supply => [.supplyConversionEnd s.pins.vsup]
  | some (.confirm c) => [.voltageReConversionEnd s.pins.senseV[c]]
  | some (.spotPair c) => [.spotPairEnd s.pins.senseV[c] s.pins.senseI[c]]
  | none => []

/-- R110: the row of a finished store write that reads back what was written. -/
def State.writeRow (s : State) : List Instr :=
  match s.endedWrite with
  | some w => [.storeWriteEnd w.bytes]
  | none => []

/-- R48: the lines whose count has reached 30. -/
def State.debounceRows (s : State) : List Instr :=
  offerEach (fun f => s.debounceDue (.int f)) (fun f => .intentDebounce (.int f)) ++
    offer (s.debounceDue .crank) (.intentDebounce .crank)

/-- R152: the expired entries. -/
def State.expiryRows (s : State) : List Instr :=
  offerEach (fun r => (s.expired (.slot r)).isSome) (fun r => .rosterExpiry (.slot r)) ++
    (([0, 1, 2, 3] : List (Fin 4)).filter fun i => (s.expired (.unplaced i)).isSome).map
      fun i => .rosterExpiry (.unplaced i)

/-- R208: the tracked stations whose deadline has passed unstarted. -/
def State.trackerRows (s : State) : List Instr :=
  (s.learner.tracked.filter fun t => s.trackedDue t.serial).map fun t => .learnTrackerDeadline t.serial

/-- The time-driven rows that are due now. -/
def State.due (s : State) : List Instr :=
  offer s.scanDue .scanStep ++
  s.conversionRow ++
  offerEach (fun c => s.circuits[c].missDue s.now) .missedFlash ++
  offerEach (fun c => s.circuits[c].silenceDue s.now) .silenceDeadline ++
  offerEach (fun c => s.circuits[c].lingerDue s.now) .lingerEnd ++
  offerEach (fun c => (s.circuits[c].endedWindow s.now).isSome) .windowClose ++
  offerEach (fun c => (s.circuits[c].heldOnRecord s.now).isSome) .heldOnClose ++
  offerEach (fun c => (s.circuits[c].dueRecord s.now).isSome) .takenForJudgement ++
  offerEach (fun c => s.circuits[c].learnDue s.now) .learnDeadline ++
  s.writeRow ++
  s.debounceRows ++
  offer s.reSendDue .reSendTimer ++
  offer s.stalenessDue .stalenessTimer ++
  offer (reached s.headClashAt s.now) .headClashDeadline ++
  s.expiryRows ++
  offer s.blinkDue .warnBlinkHalf ++
  offer s.secondDue .trainSeconds ++
  offer (reached s.balance.unlistedAt s.now) .unlistedDeadline ++
  offer s.aloneDue .aloneTimer ++
  offer s.statusDue .statusTimer ++
  offer s.holdoffDue .holdoff ++
  offer s.rearDue .rearBurstStart ++
  offer s.endedBurst.isSome .burstEnd ++
  offer s.silenceDue .rankSilenceDeadline ++
  s.trackerRows ++
  offer s.dueQuery.isSome .queryDeadline ++
  offer s.edgeDue.isSome .rearPulse

/-- A command put at the front of the queue. -/
def State.pushFront (s : State) (i : Option Instr) : State :=
  match i with
  | none => s
  | some c => { s with pending := c :: s.pending }

end Sys2Proof.Machine
end

