-- ==== Sys2Proof/Machine/Step.lean ====
section
/-! DEFINITION. One step of the station. -/

namespace Sys2Proof.Machine

/-- The command at the front of the queue runs with the queue's rest. On an empty queue roster entries turn STALE (R148;
log entry 34), then the first time-driven row that is due runs, and when none is due the clock moves on by 125 µs
(DESIGN CHOICE, log entry 1). -/
def step (s : State) : Host.Outcome State Fault Refusal :=
  match s.pending with
  | c :: rest => exec c { s with pending := rest }
  | [] =>
    if s.roster.ages s.now then .next s.ageEntries
    else
      match s.due with
      | c :: _ => exec c s
      | [] => .next s.tick

/-- `s` with the command that a word spells put at the front of its queue; the table gives no row any bits, so no word
spells one (DESIGN CHOICE, log entry 26). -/
def State.withFetchWord (s : State) (nbits w : Nat) : State := s.pushFront (decodeTableWord nbits w)

end Sys2Proof.Machine
end

