-- ==== Sys2Proof/Safety.lean ====
section
/-! DEFINITION. What counts as a sound station: the laws that the chapters state of each block, as decidable
predicates of a state, and a step that stops nothing. -/

namespace Sys2Proof.Machine

/-- A step goes on. -/
def Continues (o : Host.Outcome State Fault Refusal) : Prop := ∃ t, o = .next t

/-! ## Laws of one station -/

/-- R143, the law of rank: the head's rank is always 0, and a unit is never at rank 0. -/
def State.rankLaw (s : State) : Bool :=
  if s.isHead then s.rank.state == .ranked 0 else s.rank.state != .ranked 0

/-- The serials that a roster holds, slots first. -/
def Roster.serials (r : Roster) : List Serial :=
  (allCirc.filterMap fun i => r.slots[i].map RosterEntry.serial) ++ r.unplaced.map RosterEntry.serial

/-- R147, the law of the roster, with R148 (CLASH only in the unplaced list) and the closed slot empty. -/
def State.rosterLaw (s : State) : Bool :=
  decide (s.roster.unplaced.length ≤ 4) && decide s.roster.serials.Nodup &&
    allCirc.all fun i =>
      (!s.slotClosed i || s.roster.slots[i].isNone) && !(s.roster.slots[i].map RosterEntry.clash).getD false

/-- R177, R183: at most 32 entries, no two with one key; the overflow tally and the occurrences within 255. -/
def State.listLaw (s : State) : Bool :=
  decide (s.faults.entries.length ≤ 32) && decide (s.faults.entries.map Entry.key).Nodup &&
    decide (s.faults.overflow ≤ 255) && s.faults.entries.all fun e => 1 ≤ e.occurrences && e.occurrences ≤ 255

/-- R195, the law of the warning output. -/
def State.warnLaw (s : State) : Bool := s.warn.state == s.faults.warnState

/-- R200: at most 16 events, and none on a unit. -/
def State.eventLaw (s : State) : Bool := decide (s.events.length ≤ 16) && (s.isHead || s.events.isEmpty)

/-- R6, R127, R134: a silent station keeps its pending set empty. -/
def State.silenceLaw (s : State) : Bool := !s.isSilent || s.link.slots.isEmpty

/-- The entries of a roster, slots first. -/
def Roster.entries (r : Roster) : List RosterEntry := (allCirc.filterMap fun i => r.slots[i]) ++ r.unplaced

/-- R148: an entry is FRESH up to an age of 1000 and STALE from it; at 1000 it may be either (R160, R174). -/
def RosterEntry.ageLaw (e : RosterEntry) (now : Ms) : Bool :=
  decide (e.heard ≤ now) && (if e.aged then decide (e.heard + 1000 ≤ now) else decide (now ≤ e.heard + 1000))

/-- R148: the age classes of the roster. -/
def State.ageLaw (s : State) : Bool := s.roster.entries.all (·.ageLaw s.now)

/-- R109: an engine that writes nothing has nothing waiting, and no circuit waits twice. -/
def WriteEngine.law (w : WriteEngine) : Bool :=
  (w.current.isSome || w.configSlot.isNone && w.queue.isEmpty) && decide (w.queue.map RefWrite.circuit).Nodup

/-- R109. -/
def State.writeLaw (s : State) : Bool := s.writes.law

/-- R10: the edge-confirm queue holds at most one entry per circuit. -/
def State.confirmLaw (s : State) : Bool := decide s.conv.confirmQueue.Nodup

/-- R52: at most eight ring entries, in the order of their dates, none later than now. -/
def State.ringLaw (s : State) : Bool :=
  decide (s.ring.length ≤ 8) && decide ((s.ring.map RingEntry.date).Pairwise (· ≤ ·)) &&
    s.ring.all fun e => decide (e.date ≤ s.now)

/-! ## Laws of one circuit -/

/-- R83, R88: the counts of a filter, and no details without a confirmed kind. -/
def Filter.law (f : Filter) : Bool :=
  f.confirm ≤ 2 && f.clear ≤ 4 && (f.confirm == 0) == f.candidate.isNone &&
    (f.confirmed.isSome || f.clear == 0 && f.m.isNone && f.attribution.isNone && f.front.isNone && f.sign.isNone)

/-- R83: every filter of the station. -/
def State.filterLaw (s : State) : Bool :=
  allCirc.all fun c => s.circuits[c].filter.law && s.balance.filters[c].law

/-- R45: the pending-judgement queues hold at most two records. -/
def State.queueLaw (s : State) : Bool := allCirc.all fun c => s.circuits[c].queue.length ≤ 2

/-- R26, R30, R31, R34: the lock state of a tracker and what goes with it. -/
def Tracker.law (t : Tracker) : Bool :=
  t.disagree ≤ 2 && t.miss ≤ 2 &&
    (if t.locked then
      t.window.length == 4 && t.pbar.isSome && t.compareAt.isSome && t.silenceAt.isNone && t.activity != .dormant
    else
      t.window.length ≤ 4 && t.pbar.isNone && t.compareAt.isNone && t.disagree == 0 && t.miss == 0 &&
        t.silenceAt.isSome == (t.activity == .active))

/-- R26: every tracker of the station. -/
def State.trackerLaw (s : State) : Bool := allCirc.all fun c => s.circuits[c].tracker.law

/-- R97, R103: an Iref in use lies in the adoption window of its circuit; LEARNED holds one; k is below 8; only a lamp
circuit leaves UNLEARNED. -/
def Circuit.refLaw (k : Circuit) : Bool :=
  (k.ref.iref.all fun r => k.cfg.adopts r) && (k.ref.learn != .learned || k.ref.iref.isSome) && k.ref.k < 8 &&
    (k.cfg.kind.isLamp || k.ref.learn == .unlearned)

/-- R103: every reference of the station. -/
def State.refLaw (s : State) : Bool := allCirc.all fun c => s.circuits[c].refLaw

end Sys2Proof.Machine
end

