-- ==== Sys2Proof/WellFormed.lean ====
section
/-! DEFINITION. Which terms of `Instr` stand for a command the station can meet. -/

namespace Sys2Proof

/-- Whether a received run of characters fails some test of R121. -/
def RxResult.isBad : RxResult → Bool
  | .bad _ _ => true
  | .good _ _ _ => false

/-- A bad telegram fails a test of R121; an unknown code is none of R218's; a configuration block has 28 content
bytes and a store item reads back 29 or 3 bytes (R219); the bits read back during an attempt are at least one. -/
def Instr.wf : Instr → Bool
  | .badTelegram cs => (rxTest cs).isBad
  | .unknown code => (requestLength code).isNone
  | .storeConfig block => block.length == 28
  | .storeWriteEnd readback => readback.length == 29 || readback.length == 3
  | .yieldLine line => !line.isEmpty
  | .driveFault line => !line.isEmpty
  | _ => true

end Sys2Proof
end

