-- ==== Sys2Proof/Certificates/Slice0/Obligations.lean ====
section
/-! DEFINITION. The statements for the provers. A statement's free variables are universally quantified; `∃ t, exec i
s = .next t ∧ t = { s with x := t.x } ∧ …` says that the command completes, that every field but those listed is
unchanged, and what the listed ones hold. -/

open Sys2Proof Sys2Proof.Machine

/-! ## The queue and the clock -/

/-- Model's choice (log entries 1 and 30): the commands that wait stand in one queue and are taken first in, first out.
The command at its front runs with the queue's rest. -/
def Obligations.StepRunsFrontCommand : Prop :=
  ∀ (c : Instr) (rest : List Instr) (s : State),
    step { s with pending := c :: rest } = exec c { s with pending := rest }

/-- Model's choice (log entries 1, 7 and 34): an empty queue lets a roster entry whose age has reached 1000 turn STALE,
runs the first due row, or lets 125 µs pass; at a new millisecond the head reads its intent lines once (R48). -/
def Obligations.IdleStepAgesRunsDueRowOrTicks : Prop :=
  ∀ s : State, s.pending = [] →
    let ripe := fun e : RosterEntry => e.aged = false ∧ e.heard + 1000 ≤ s.now
    let aged := fun e : RosterEntry => { e with aged := e.aged || decide (e.heard + 1000 ≤ s.now) }
    ((∃ e ∈ s.roster.entries, ripe e) → ∃ t, step s = .next t ∧ t = { s with roster := t.roster } ∧
      (∀ r : Rank, t.roster.slots[r] = s.roster.slots[r].map aged) ∧ t.roster.unplaced = s.roster.unplaced.map aged) ∧
    ((∀ e ∈ s.roster.entries, ¬ ripe e) →
      (∀ c l, s.due = c :: l → step s = exec c s) ∧
      (s.due = [] → ∃ t, step s = .next t ∧ t = { s with ticks := s.ticks + 1, intent := t.intent } ∧
        (¬ (s.isHead ∧ (s.ticks + 1) % 8 = 0) → t.intent = s.intent) ∧
        (s.isHead ∧ (s.ticks + 1) % 8 = 0 →
          t.intent.debounced = s.intent.debounced ∧ t.intent.crank = s.intent.crank ∧
          (∀ f : Fin 8, t.intent.counts[f] =
            if s.pins.intents[f] = s.intent.debounced[f] then 0 else min 30 (s.intent.counts[f] + 1)) ∧
          t.intent.crankCount =
            if s.pins.crank = s.intent.crank then 0 else min 30 (s.intent.crankCount + 1))))

/-- Model's choice (log entry 2): a row that is not due leaves the state, so every command completes in every state. It
leaves the queue and the pins alone, and every command but START_UP_RESET and RESTART leaves the effective configuration
and the clock alone. -/
def Obligations.EveryCommandCompletesAndKeepsQueueAndPins : Prop :=
  ∀ (c : Instr) (s : State), ∃ t, exec c s = .next t ∧ t.pending = s.pending ∧ t.pins = s.pins ∧
    (c ≠ .startUpReset → c ≠ .restart → t.cfg = s.cfg ∧ t.ticks = s.ticks ∧
      ∀ k : Circ, t.circuits[k].cfg = s.circuits[k].cfg)

/-! ## Formats -/

/-- R117, R118, R121, R216: every good telegram's characters are read back as that telegram. -/
def Obligations.TelegramCharactersReadBack : Prop :=
  ∀ (i : Instr) (cs : List RxChar), encodeTelegram i = some cs → decodeTelegram cs = i

/-- R198, R218: every well-formed request's frame is read back as that request, whatever bytes follow it, and every
shorter frame is a BAD FRAME; so are the bits sampled on PDI, bit 0 of each byte first. That a frame of no byte is a BAD
FRAME, and that bits left over make no byte, is DEDUCED (log entry 18). -/
def Obligations.RequestFramesReadBack : Prop :=
  ∀ (i : Instr) (bytes : List Byte), i.wf → encodeFrame i = some bytes →
    let bits := bytes.flatMap fun b => (List.range 8).map b.getLsbD
    (∀ extra, decodeFrame (bytes ++ extra) = i) ∧ (∀ n, n < bytes.length → decodeFrame (bytes.take n) = .badFrame) ∧
      (∀ extra, decodePdi (bits ++ extra) = i) ∧ ∀ n, n < bits.length → decodePdi (bits.take n) = .badFrame

/-- R216, R217: COMMAND, STATUS, QUERY and READING payloads whose fields are in range are read back, and a payload
with a field out of its range reads as none; that Vs, the figures of a READING and the target rank of a QUERY have no
range is DEDUCED (log entry 13). -/
def Obligations.PayloadsReadBack : Prop :=
  (∀ c : CommandContent, c.period ≤ 2000 → c.vs < 65536 → CommandContent.decode c.encode = some c) ∧
  (∀ r : Report,
    (∀ c : Circ, r.circuits[c].m ≤ 8 ∧ r.circuits[c].mean % 2 = 0 ∧ r.circuits[c].mean ≤ 8190 ∧
      (∀ k, r.circuits[c].confirmed = some k → k.code ≤ 7) ∧
      (r.circuits[c].attribution = some .coupling → ∃ x, r.circuits[c].front = some x ∧ x ≤ 6) ∧
      (r.circuits[c].attribution ≠ some .coupling → r.circuits[c].front = none)) →
    Report.decode r.encode = some r) ∧
  (∀ tag rank c, queryDecode (queryPayload tag rank c) = some (tag, BitVec.ofNat 8 rank.val, c)) ∧
  (∀ tag c (d : ReadingData), d.vm < 65536 → d.im < 65536 → d.inorm < 65536 → d.r < 65536 → d.m ≤ 8 → d.n ≤ 8 →
    readingDecode (readingPayload tag c d) = some (tag, c, d)) ∧
  (∀ p : BitVec 64, CommandContent.decode p = none ↔
    2000 < (p.extractLsb' 24 16).toNat ∨ ∃ f : Fin 8, p.extractLsb' (8 + 2 * f.val) 2 = 3) ∧
  (∀ p : BitVec 288, Report.decode p = none ↔ ∃ c : Circ,
    let w := p.extractLsb' (32 + 32 * c.val) 32
    p.extractLsb' (16 + 2 * c.val) 2 = 3 ∨ 8 < (w.extractLsb' 10 4).toNat ∨ 4 < (w.extractLsb' 14 3).toNat ∨
      6 < (w.extractLsb' 17 3).toNat) ∧
  (∀ p : BitVec 24, queryDecode p = none ↔ 15 < (p.extractLsb' 0 8).toNat ∨ 7 < (p.extractLsb' 16 8).toNat) ∧
  (∀ p : BitVec 104, readingDecode p = none ↔
    15 < (p.extractLsb' 0 8).toNat ∨ 7 < (p.extractLsb' 8 8).toNat ∨ 8 < (p.extractLsb' 80 8).toNat ∨
      8 < (p.extractLsb' 88 8).toNat ∨ 2 < (p.extractLsb' 96 8).toNat)

/-- Words written out from R117, R118, R216, R218 to R220. -/
def Obligations.WrittenOutWordsDecode : Prop :=
  headerByte .command 0 false true = 0x80#8 ∧ headerByte .status 1 false false = 0x21#8 ∧
    headerByte .status 2 false false = 0x11#8 ∧
    headerKind 0x11#8 = some .status ∧ headerRank 0x11#8 = 2#3 ∧ headerKind 0x07#8 = none ∧
    CircuitReport.ofWord 0x58C00D6A#32 2#2 =
      some ⟨.stop, .incandescent, true, true, some .lampPartial, 3, none, none, 2840, .learned⟩ ∧
    withCheck [0x98#8, 0x0D#8] = [0x98#8, 0x0D#8, 0x5A#8] ∧ checkByte (List.replicate 28 0xFF#8) = 0x1B#8 ∧
    decodeFrame [0x04#8, 0x01#8, 0xA9#8, 0xE0#8, 0x52#8] = .ack 0x01#8 0x52E0A9#24 ∧
    decodePdi [false, true, true, false, false, false, false, false, true, false, false, true, false, false, false,
      false] = .clearFlags 0x09#8 ∧
    decodeFrame [0x08#8, 0x02#8] = .badFrame ∧ decodeFrame [0x7F#8] = .unknown 0x7F#8

/-! ## Arithmetic of the verdict engine -/

/-- R22 to R24: the normalised current of every load kind, formed from the voltage clamped to 18000..32000 mV; its
range, and that each bound is reached. A NOT FITTED circuit's, which only a spot reading forms, is 0 (R211). -/
def Obligations.NormalisedCurrentStaysInRange : Prop :=
  ∀ (k : LoadKind) (im vm : Nat),
    let v := min (max vm 18000) 32000
    (normalise k im vm : Int) = (match k with
      | .incandescent => (im * (2400000 + 55 * (24000 - (v : Int))) + 1200000) / 2400000
      | .led => (im * v + 12000) / 24000
      | .feed => im
      | .notFitted => 0) ∧
    (im ≤ 8190 → normalise k im vm ≤ 10920 ∧ (k = .incandescent → normalise k im vm ≤ 9316) ∧
      (k = .feed → normalise k im vm ≤ 8190)) ∧
    (32000 ≤ vm → normalise .led 8190 vm = 10920) ∧ (vm ≤ 18000 → normalise .incandescent 8190 vm = 9316) ∧
    normalise .feed 8190 vm = 8190

/-- R73: the bands of stage 6, and every reported m in 0..n. -/
def Obligations.LampVerdictBands : Prop :=
  ∀ inorm n r : Nat, 1 ≤ n → 1 ≤ r →
    (classifyLamp inorm n r).2 ≤ n ∧
    ((classifyLamp inorm n r).1 = some .overload ↔ 3 * r < 2 * inorm) ∧
    (3 * r < 2 * inorm → (classifyLamp inorm n r).2 = n) ∧
    (classifyLamp inorm n r = (none, n) ↔ 2 * inorm ≤ 3 * r ∧ r * (2 * n - 1) ≤ 2 * n * inorm) ∧
    (classifyLamp inorm n r = (some .lampOut, 0) ↔ 2 * inorm ≤ 3 * r ∧ 2 * n * inorm < r) ∧
    (∀ m, classifyLamp inorm n r = (some .lampPartial, m) ↔
      2 * inorm ≤ 3 * r ∧ 1 ≤ m ∧ m < n ∧ r * (2 * m - 1) ≤ 2 * n * inorm ∧ 2 * n * inorm < r * (2 * m + 1))

/-- R170: the result of the two sums of a balance record, and the range of its threshold. -/
def Obligations.BalanceResultOfTwoSums : Prop :=
  ∀ ihead sum : Nat,
    (ihead ≤ 3004 → max 300 ((ihead + 5) / 10) = 300) ∧ (ihead ≤ 8190 → max 300 ((ihead + 5) / 10) ≤ 819) ∧
    (balanceOf ihead sum = .leakage .sink ⟨ihead, sum, (ihead : Int) - sum, max 300 ((ihead + 5) / 10)⟩ ↔
      sum + max 300 ((ihead + 5) / 10) < ihead) ∧
    (balanceOf ihead sum = .leakage .source ⟨ihead, sum, (ihead : Int) - sum, max 300 ((ihead + 5) / 10)⟩ ↔
      ihead + max 300 ((ihead + 5) / 10) < sum) ∧
    (balanceOf ihead sum = .clean ⟨ihead, sum, (ihead : Int) - sum, max 300 ((ihead + 5) / 10)⟩ ↔
      sum ≤ ihead + max 300 ((ihead + 5) / 10) ∧ ihead ≤ sum + max 300 ((ihead + 5) / 10))

/-- R85 to R88, R90: whatever a filter holds, three verdicts in a row of a kind that is neither confirmed nor its
candidate confirm that kind with the third's details (the front rank only with COUPLING); a clean one ends a run of
candidates; five clean ones in a row clear; a verdict of the confirmed kind refreshes the details. That a replacement is
handed on as cleared, then confirmed is DEDUCED (log entry 32). -/
def Obligations.ThreeConfirmFiveClear : Prop :=
  ∀ (f : Filter) (k : FaultKind) (a b c z : Evidence), z.kind = none →
    let held := fun e : Evidence =>
      ({ candidate := none, confirm := 0, confirmed := some k, clear := 0, m := e.m, n := f.n
         attribution := e.attribution, front := if e.attribution = some .coupling then e.front else none
         sign := e.sign } : Filter)
    (a.kind = some k → b.kind = some k → c.kind = some k → f.confirmed ≠ some k → f.candidate ≠ some k →
      let g := (f.take a).1
      let h := (g.take b).1
      f.take a = ({ f with
        candidate := some k, confirm := 1, clear := if f.confirmed = none then f.clear else 0 }, []) ∧
      g.take b = ({ g with confirm := 2 }, []) ∧
      h.take c = (held c, match f.confirmed with
        | none => [.confirmed k]
        | some old => [.cleared old, .confirmed k])) ∧
    (f.confirmed = none → f.take z = ({ f with candidate := none, confirm := 0 }, [])) ∧
    (f.confirmed = some k → f.clear < 4 →
      f.take z = ({ f with candidate := none, confirm := 0, clear := f.clear + 1 }, [])) ∧
    (f.confirmed = some k → 4 ≤ f.clear → f.take z =
      ({ candidate := none, confirm := 0, confirmed := none, clear := 0, m := none, n := f.n, attribution := none
         front := none, sign := none }, [.cleared k])) ∧
    (f.confirmed = some k → f.clear = 0 →
      let f4 := ((((f.take z).1.take z).1.take z).1.take z).1
      f4.confirmed = some k ∧ f4.clear = 4 ∧ (f4.take z).1 = .start f.n ∧ (f4.take z).2 = [.cleared k]) ∧
    (a.kind = some k → f.confirmed = some k → (f.take a).1 = held a ∧
      ((held a).m = f.m ∧ (held a).attribution = f.attribution ∧ (held a).front = f.front ∧ (held a).sign = f.sign →
        (f.take a).2 = [.refreshed k]) ∧
      (¬ ((held a).m = f.m ∧ (held a).attribution = f.attribution ∧ (held a).front = f.front ∧
          (held a).sign = f.sign) → (f.take a).2 = [.detailsChanged k]))

/-- R79: the severity of every kind on every function. -/
def Obligations.SeverityTable : Prop :=
  ∀ (k : FaultKind) (f : LampFn),
    severityOf k (some f) =
      (match k with
        | .lampOut | .noSupply => if f = .stop ∨ f = .leftTurn ∨ f = .rightTurn then .critical else .major
        | .lampPartial | .flicker => if f = .stop ∨ f = .leftTurn ∨ f = .rightTurn then .major else .minor
        | .overload | .leakage | .unitSilent | .rankClash => .major
        | .stray | .cadence => .minor
        | .headClash => .critical) ∧
    severityOf .unitSilent none = .major ∧ severityOf .rankClash none = .major ∧ severityOf .headClash none = .critical

/-- R149: the claim of every header, what the entry keeps of it, and the claim of a sound sender. -/
def Obligations.ClaimOfEveryHeader : Prop :=
  ∀ (h : RxHeader) (s : State) (rep : Report) (clash : Bool),
    (∀ r : Rank, claimOf h = some r ↔
      h.unranked = false ∧ (h.head = true ∧ h.rank = 0 ∧ r = 0 ∨ h.head = false ∧ h.rank ≠ 0 ∧ h.rank.toNat = r.val)) ∧
    (s.entryFrom h rep clash).claimed = claimOf h ∧
    (s.isHead = true → claimOf s.ownHeader = some 0) ∧
    (∀ r : Rank, s.isHead = false → s.rank.state = .ranked r → r ≠ 0 → claimOf s.ownHeader = some r)

/-! ## Laws that every step keeps -/

/-- R143, R147, R148: every step keeps the law of rank, the law of the roster, and the age classes: an entry is FRESH
only up to an age of 1000 ms and STALE only from it. That both classes occur at 1000 is the model's choice (log entry
34). -/
def Obligations.StepKeepsRankAndRosterLaws : Prop :=
  ∀ s t : State, step s = .next t →
    (s.rankLaw = true → t.rankLaw = true) ∧ (s.rosterLaw = true → t.rosterLaw = true) ∧
      (s.ageLaw = true → t.ageLaw = true)

/-- R177, R183: the law of the fault list and the law of its counts are kept by every step. -/
def Obligations.StepKeepsFaultListLaw : Prop :=
  ∀ s t : State, s.listLaw = true → step s = .next t → t.listLaw = true

/-- R6, R10, R52, R109, R127, R195, R200: every step keeps the law of the warning output, the bound of the event queue,
a silent station's empty pending set, one edge-confirm request per circuit, the bound and the order of the history
ring, and the law of the write engine: one that is free has nothing waiting, and no circuit waits twice. -/
def Obligations.StepKeepsStationLaws : Prop :=
  ∀ s t : State, step s = .next t →
    (s.warnLaw = true → t.warnLaw = true) ∧ (s.eventLaw = true → t.eventLaw = true) ∧
      (s.silenceLaw = true → t.silenceLaw = true) ∧ (s.confirmLaw = true → t.confirmLaw = true) ∧
      (s.ringLaw = true → t.ringLaw = true) ∧ (s.writeLaw = true → t.writeLaw = true)

/-- R26, R30, R31, R34, R45, R83, R88, R97, R103: every step keeps the law of the filter counts, the bound of the
pending-judgement queues, what goes with a tracker's lock state, and every reference in use within its circuit's
adoption window. -/
def Obligations.StepKeepsCircuitLaws : Prop :=
  ∀ s t : State, step s = .next t →
    (s.filterLaw = true → t.filterLaw = true) ∧ (s.queueLaw = true → t.queueLaw = true) ∧
      (s.trackerLaw = true → t.trackerLaw = true) ∧ (s.refLaw = true → t.refLaw = true)

/-- Every law of Safety.lean holds at reset. -/
def Obligations.ResetKeepsEveryLaw : Prop :=
  State.reset.rankLaw = true ∧ State.reset.rosterLaw = true ∧ State.reset.ageLaw = true ∧
    State.reset.listLaw = true ∧ State.reset.warnLaw = true ∧ State.reset.eventLaw = true ∧
    State.reset.silenceLaw = true ∧ State.reset.confirmLaw = true ∧ State.reset.ringLaw = true ∧
    State.reset.writeLaw = true ∧ State.reset.filterLaw = true ∧ State.reset.queueLaw = true ∧
    State.reset.trackerLaw = true ∧ State.reset.refLaw = true

/-! ## Rules over every command -/

/-- R60, R84: while the station coasts no command but a start-up reset changes a filter. -/
def Obligations.CoastingFreezesFilters : Prop :=
  ∀ (i : Instr) (s t : State), i ≠ .startUpReset → i ≠ .restart → s.coasting = true → exec i s = .next t →
    (∀ c : Circ, t.circuits[c].filter = s.circuits[c].filter) ∧ t.balance.filters = s.balance.filters

/-- R136, R155: a change of a confirmed kind, an attribution, a front rank, an energized state, a learn state or the
active cause set queues a STATUS at once, or leaves a change waiting while the holdoff runs. Model's choices: a step
queues one STATUS, with the report of the state after the whole step (log entry 8); a change at the moment of the
timer's STATUS (`expiredAt`), or a head clash that begins in the millisecond in which another ended (`clashEnd`) while
no change waits, forms that moment's STATUS again (log entry 19). -/
def Obligations.ChangeQueuesStatus : Prop :=
  ∀ (i : Instr) (s t : State), i ≠ .startUpReset → i ≠ .restart → exec i s = .next t → t.news ≠ s.news →
    let queued := t.tell.statusAt = s.now + 500 ∧ t.tell.holdoffAt = s.now + 100 ∧ t.tell.waiting = false ∧
      (t.isSilent = false → t.link.slots.status = some t.report.encode)
    let waits := t.tell.waiting = true ∧ t.tell.statusAt = s.tell.statusAt ∧ t.tell.holdoffAt = s.tell.holdoffAt ∧
      t.link.slots.status = s.link.slots.status
    let begins := s.headClashAt = none ∧ t.headClashAt ≠ none
    (s.tell.holdoffAt ≤ s.now → queued) ∧
    (s.now < s.tell.holdoffAt → s.tell.expiredAt ≠ some s.now → s.tell.clashEnd ≠ some s.now → waits) ∧
    (s.now < s.tell.holdoffAt → s.tell.expiredAt = some s.now → queued) ∧
    (s.now < s.tell.holdoffAt → s.tell.expiredAt ≠ some s.now → s.tell.clashEnd = some s.now →
      (begins → s.tell.waiting = false → queued) ∧ (¬ begins ∨ s.tell.waiting = true → waits))

/-- R54, R55: a record passes the settle rule with value v exactly when the ring gives v at every time from start − 300
through end + 300. Times are shifted by 300. -/
def Obligations.SettledMeansOneValue : Prop :=
  ∀ (ring : List RingEntry) (f : LampFn) (start finish : Ms) (v : FnState),
    start ≤ finish →
    (settled ring f start finish = some v ↔
      ∀ t, start ≤ t → t ≤ finish + 600 → stateAt300 ring f t = some v)

/-- R26 to R32, R35, R36: an on-edge on an UNLOCKED and on a LOCKED tracker, case by case: no candidate, too long a gap,
the sliding window and the locking fourth period, a good period, one that disagrees, and the unlock; and the note of an
off-edge, which becomes the latest note where it closes a record. Model's choices: the first case of R28 that applies (log entry 11), and that the third disagreement or a gap
of more than 2000 ms unlocks also at the compare time (log entry 33). -/
def Obligations.CadenceOnEdgesAndNotes : Prop :=
  ∀ (t : Tracker) (edge now : Nat),
    let on := { t with prevOn := some edge, phaseStart := some edge, miss := 0 }
    let silence := if t.activity = .active then some (edge + 2000) else t.silenceAt
    let compare := fun m : Nat => some (edge + m + (m + 2) / 4)
    (t.locked = false →
      (t.prevOn = none ∨ 0 < t.miss → t.onEdge edge now = { on with silenceAt := silence }) ∧
      (∀ q, t.prevOn = some q → t.miss = 0 → 2000 < edge - q →
        t.onEdge edge now = { on with window := [], silenceAt := silence }) ∧
      (∀ q, t.prevOn = some q → t.miss = 0 → edge - q ≤ 2000 → t.window.length ≤ 4 →
        let w := if t.window.length = 4 then t.window.drop 1 ++ [edge - q] else t.window ++ [edge - q]
        let m := (w.sum + 2) / 4
        let agree := w.length = 4 ∧ ∀ x ∈ w, absDiff x m * 20 ≤ m
        (agree → t.onEdge edge now = { on with
          locked := true, window := w, pbar := some m, disagree := 0, silenceAt := none, compareAt := compare m }) ∧
        (¬ agree → t.onEdge edge now = { on with window := w, silenceAt := silence }))) ∧
    (∀ p, t.locked = true → t.pbar = some p →
      (t.prevOn = none ∨ 0 < t.miss → t.onEdge edge now = { on with compareAt := compare p }) ∧
      (∀ q, t.prevOn = some q → t.miss = 0 →
        let good := absDiff (edge - q) p * 10 ≤ p
        let w := t.window.drop 1 ++ [edge - q]
        let m := (w.sum + 2) / 4
        (edge - q ≤ 2000 → good → t.onEdge edge now = { on with
          window := w, pbar := some m, disagree := 0, compareAt := compare m }) ∧
        (edge - q ≤ 2000 → ¬ good → t.disagree < 2 → t.onEdge edge now = { on with
          disagree := t.disagree + 1, compareAt := compare p }) ∧
        (2000 < edge - q ∨ ¬ good ∧ 2 ≤ t.disagree → t.onEdge edge now = { on with
          locked := false, window := [], pbar := none, disagree := 0, compareAt := none, silenceAt := silence }))) ∧
    (∀ (reported : Option Nat) (closed : Bool),
      (t.phaseStart = none → t.noteAt edge reported = none ∧ t.offEdge edge reported false = t ∧
        t.offEdge edge reported true = { t with latestNote := none }) ∧
      (∀ p, t.phaseStart = some p → t.locked = false → t.noteAt edge reported = none ∧
        t.offEdge edge reported closed = { t with
          lastT := some (edge - p), phaseStart := none, latestNote := if closed = true then none else t.latestNote }) ∧
      (∀ p m, t.phaseStart = some p → t.locked = true → t.pbar = some m →
        let d := ((edge - p) * 100 + m / 2) / m
        let period := m < 500 ∨ 1250 < m
        let duty := d < 30 ∨ 75 < d
        let mismatch := ∃ r, reported = some r ∧ r ≠ 0 ∧ 40 < absDiff m r
        (¬ (period ∨ duty ∨ mismatch) → t.noteAt edge reported = none) ∧
        (period ∨ duty ∨ mismatch → ∃ n, t.noteAt edge reported = some n ∧ n.pbar = m ∧ n.onTime = edge - p ∧
          n.dutyPercent = d ∧ (n.period = true ↔ period) ∧ (n.duty = true ↔ duty) ∧ (n.mismatch = true ↔ mismatch)) ∧
        t.offEdge edge reported closed = { t with
          lastT := some (edge - p), phaseStart := none
          latestNote := if closed = true then t.noteAt edge reported else t.latestNote }))

/-! ## The sense converter -/

/-- R9 to R13: what the converter goes to when it is released: the edge-confirm queue, then the spot reading, then the
waiting scan step. A scan step that falls due is granted at once on a free converter with nothing ahead of it;
otherwise it waits, and the converter goes on, or goes to what stands ahead of it first. -/
def Obligations.ScanStepIsGrantedOrWaits : Prop :=
  ∀ s : State,
    (∀ c rest, s.conv.confirmQueue = c :: rest →
      s.release = { s with conv := { s.conv with grant := some ⟨.confirm c, s.ticks⟩, confirmQueue := rest } }) ∧
    (∀ r, s.conv.confirmQueue = [] → s.conv.spotWaiting = true → s.spot.reading = some r →
      s.release = { s with conv := { s.conv with
        grant := some ⟨.spotPair r.circuit, s.ticks⟩, spotWaiting := false, spotSinceScan := true } }) ∧
    (s.conv.confirmQueue = [] → s.conv.spotWaiting = false ∨ s.spot.reading = none →
      (∀ p, s.conv.scanWaiting = some p → s.release = { s with conv := { s.conv with
        grant := some ⟨.scanPair p, s.ticks⟩, scanWaiting := none, spotSinceScan := false
        spotWaiting := s.spot.reading.isSome } }) ∧
      (s.conv.scanWaiting = none → s.release = { s with conv := { s.conv with grant := none } })) ∧
    (s.conv.scanDue ≤ s.ticks → s.conv.scanWaiting = none →
      let waiting := { s.conv with
        scanWaiting := some s.conv.scanPos, scanPos := s.conv.scanPos + 1, scanDue := s.conv.scanDue + 10 }
      (s.conv.grant ≠ none → exec .scanStep s = .next { s with conv := waiting }) ∧
      (s.conv.grant = none → exec .scanStep s = .next { s with conv := waiting }.release))

/-- R9, R10, R12, R15, R16, R19: what the end of a scan pair does to its circuit and to the converter: a crossing joins
the edge-confirm queue once, the supply conversion follows the pair of C0, and any other pair releases the converter.
No other circuit and nothing else changes. -/
def Obligations.ScanPairReachesDetectorOrRecord : Prop :=
  ∀ (v i : BitVec 12) (c : Circ) (s : State), s.endedJob = some (.scanPair c) →
    ∃ t, exec (.pairEnd v i) s = .next t ∧ t = { s with circuits := t.circuits, conv := t.conv } ∧
      (∀ d : Circ, d ≠ c → t.circuits[d] = s.circuits[d]) ∧
      (let k := s.circuits[c]
      let vm := 10 * v.toNat
      let im := 2 * i.toNat
      let crossing := k.energized = true ∧ vm ≤ 6000 ∨ k.energized = false ∧ 12000 ≤ vm
      let blanked := ∃ q, k.lastOn = some q ∧ s.stamp < q + (if k.cfg.kind = .incandescent then 60 else 20)
      let handsOn := fun queue : List Circ =>
        (c = 0 → t.conv = { s.conv with confirmQueue := queue, grant := some ⟨.supply, s.ticks⟩ }) ∧
        (c ≠ 0 → t.conv = { s with conv := { s.conv with confirmQueue := queue } }.release.conv)
      (k.cfg.kind = .notFitted → t.circuits[c] = k ∧ handsOn s.conv.confirmQueue) ∧
      (k.cfg.kind ≠ .notFitted → crossing →
        t.circuits[c] = { k with pendingSample := some ⟨vm, im, s.stamp⟩ } ∧
        (c ∈ s.conv.confirmQueue → handsOn s.conv.confirmQueue) ∧
        (c ∉ s.conv.confirmQueue → handsOn (s.conv.confirmQueue ++ [c]))) ∧
      (k.cfg.kind ≠ .notFitted → ¬ crossing → (k.energized = false ∨ blanked) →
        t.circuits[c] = k ∧ handsOn s.conv.confirmQueue) ∧
      (k.cfg.kind ≠ .notFitted → ¬ crossing → k.energized = true → ¬ blanked →
        handsOn s.conv.confirmQueue ∧
        t.circuits[c] = { k with opened := k.opened.map fun r =>
          if r.n < 65535 then { r with n := r.n + 1, sumI := r.sumI + im, sumV := r.sumV + vm } else r }))

/-- R14, R57, R59: a supply reading becomes Vs and moves LOW SUPPLY by runs of 100 ms; on the head a change of coasting
raises its event, and the converter is released. -/
def Obligations.SupplyReadingMovesLowSupply : Prop :=
  ∀ (v : BitVec 12) (s : State), s.endedJob = some .supply →
    ∃ t, exec (.supplyConversionEnd v) s = .next t ∧
      t = { s with
        vs := some (10 * v.toNat), lowSupply := t.lowSupply, conv := s.release.conv, events := t.events, flags := t.flags
        link := t.link, tell := t.tell } ∧
      (let mv := 10 * v.toNat
      let runs := s.lowSupply.active = false ∧ mv < 18000 ∨ s.lowSupply.active = true ∧ 19000 ≤ mv
      (¬ runs → t.lowSupply = ⟨s.lowSupply.active, none⟩) ∧
      (runs → s.lowSupply.runStart = none → t.lowSupply = ⟨s.lowSupply.active, some s.stamp⟩) ∧
      (∀ r, runs → s.lowSupply.runStart = some r → s.stamp < r + 100 → t.lowSupply = s.lowSupply) ∧
      (∀ r, runs → s.lowSupply.runStart = some r → r + 100 ≤ s.stamp →
        t.lowSupply = ⟨!s.lowSupply.active, none⟩)) ∧
      (s.isHead = false ∨ t.coasting = s.coasting → t.events = s.events ∧ t.flags = s.flags) ∧
      (s.isHead = true → s.events.length < 16 → s.coasting = false → t.coasting = true →
        t.events = s.events ++ [⟨.coastBegin, s.trainSeconds⟩]) ∧
      (s.isHead = true → s.events.length < 16 → s.coasting = true → t.coasting = false →
        t.events = s.events ++ [⟨.coastEnd, s.trainSeconds⟩])

/-- R17, R18, R28, R29, R36, R37, R41, R43: a re-conversion that disagrees drops the edge with a count; one that agrees
takes it at the stamp of the pending sample, for a circuit in WINDOW mode and for one in ON PHASE mode, and the head
then looks at its reported period again. The converter is released either way. -/
def Obligations.ReConversionTakesOrDropsEdge : Prop :=
  ∀ (v : BitVec 12) (c : Circ) (p : Sample) (s : State),
    s.endedJob = some (.confirm c) → s.circuits[c].pendingSample = some p →
    let k := s.circuits[c]
    let agrees := k.energized = true ∧ 10 * v.toNat ≤ 6000 ∨ k.energized = false ∧ 12000 ≤ 10 * v.toNat
    let reported := if s.isHead = true then none else s.ring.getLast?.map RingEntry.period
    (¬ agrees → exec (.voltageReConversionEnd v) s = .next
      { s.setC c { k with pendingSample := none, glitch := min 65535 (k.glitch + 1) } with conv := s.release.conv }) ∧
    (agrees → ∃ t k', exec (.voltageReConversionEnd v) s = .next t ∧
      t = { s with
        circuits := t.circuits, source := t.source, ring := t.ring, conv := s.release.conv, link := t.link
        tell := t.tell } ∧
      (let u := reevaluatePeriod s (s.setC c k')
      t.circuits = u.circuits ∧ t.source = u.source ∧ t.ring = u.ring) ∧
      k' = { k with
        energized := !k.energized, lastOn := if k.energized = true then k.lastOn else some p.stamp
        pendingSample := none, opened := k'.opened, queue := k'.queue, glitch := k'.glitch, tracker := k'.tracker } ∧
      (k.tracker.activity = .dormant → k'.tracker = k.tracker ∧ k'.queue = k.queue ∧ k'.glitch = k.glitch ∧
        k'.opened = k.opened.map fun r => { r with edges := min 255 (r.edges + 1) }) ∧
      (k.tracker.activity ≠ .dormant → k.energized = false → k.opened = none →
        k'.opened = some (Rec.open .onPhase p.stamp true) ∧ k'.queue = k.queue ∧ k'.glitch = k.glitch ∧
        k'.tracker = k.tracker.onEdge p.stamp s.now) ∧
      (∀ r, k.tracker.activity ≠ .dormant → k.energized = true → k.opened = some r → r.start ≠ p.stamp →
        let closed := { r with
          edges := min 255 (r.edges + 1), finish := p.stamp, note := k.tracker.noteAt p.stamp reported }
        k'.opened = none ∧ k'.tracker = k.tracker.offEdge p.stamp reported true ∧
        (k.queue.length < 2 → k'.queue = k.queue ++ [closed] ∧ k'.glitch = k.glitch) ∧
        (∀ x y, k.queue = [x, y] → k'.queue = [y, closed] ∧ k'.glitch = min 65535 (k.glitch + 1))) ∧
      (∀ r, k.tracker.activity ≠ .dormant → k.energized = true → k.opened = some r → r.start = p.stamp →
        k'.opened = none ∧ k'.queue = k.queue ∧ k'.glitch = k.glitch ∧
        k'.tracker = k.tracker.offEdge p.stamp reported false))

/-- R11, R210, R211: a spot pair adds to its reading; the fourth forms the result from the means
(In by R23, R by R71, m by R73), which leaves a unit in its READING
slot and completes the head's own query. The converter is released. -/
def Obligations.FourSpotPairsFormReading : Prop :=
  ∀ (v i : BitVec 12) (r : SpotRun) (s : State),
    s.endedJob = some (.spotPair r.circuit) → s.spot.reading = some r →
    let sumV := r.sumV + 10 * v.toNat
    let sumI := r.sumI + 2 * i.toNat
    let k := s.circuits[r.circuit]
    let d := k.reading sumV sumI
    let lamp := k.cfg.kind = .incandescent ∨ k.cfg.kind = .led
    d.vm = (sumV + 2) / 4 ∧ d.im = (sumI + 2) / 4 ∧ d.n = k.cfg.n ∧ d.learn = k.ref.learn ∧
    d.inorm = normalise k.cfg.kind d.im d.vm ∧
    (lamp → d.r = k.ref.iref.getD (k.cfg.n * k.cfg.rating * 10) ∧ d.m = (classifyLamp d.inorm d.n d.r).2) ∧
    (¬ lamp → d.r = 0 ∧ d.m = 0) ∧
    (∃ t, exec (.spotPairEnd v i) s = .next t ∧ t.circuits = s.circuits ∧
      t.conv = { s with spot := t.spot }.release.conv ∧
      (r.pairs < 3 → t.spot = ⟨some ⟨r.tag, r.circuit, r.pairs + 1, sumV, sumI⟩, s.spot.waiting⟩ ∧
        t = { s with spot := t.spot, conv := t.conv }) ∧
      (r.pairs = 3 → s.isHead = false → s.isSilent = false → s.link.slots.reading = none →
        t = { s with spot := t.spot, conv := t.conv, link := t.link } ∧ t.spot = ⟨none, s.spot.waiting⟩ ∧
        t.link.slots = { s.link.slots with reading := some (readingPayload r.tag r.circuit d) }) ∧
      (r.pairs = 3 → s.isHead = false → s.link.slots.reading ≠ none →
        t = { s with spot := t.spot, conv := t.conv } ∧
        t.spot = ⟨none, some (readingPayload r.tag r.circuit d)⟩) ∧
      (∀ q, r.pairs = 3 → s.isHead = true → s.query.outstanding = some q → q.tag = r.tag →
        q.serial = s.cfg.serial → q.circuit = r.circuit → s.events.length < 16 →
        t = { s with spot := t.spot, conv := t.conv, query := t.query, events := t.events } ∧
        t.spot.reading = none ∧ t.query = { s.query with outstanding := none, result := .done q d } ∧
        t.events = s.events ++ [⟨.spotDone q.serial q.tag false, s.trainSeconds⟩])) ∧
    (∀ w j : BitVec 12, ∀ o : SpotRun, o.circuit ≠ r.circuit →
      ∃ t, exec (.spotPairEnd w j) { s with spot := ⟨some o, s.spot.waiting⟩ } = .next t ∧ t.spot.reading = some o)

/-! ## Cadence and records -/

/-- R31 to R33, R37, R45: the first, the second and the third missed flash of a LOCKED tracker, after which the head
looks at its reported period again. That the third unlocks also in the millisecond of an on-edge is the model's choice
(log entry 33). -/
def Obligations.MissedFlashesCountAndUnlock : Prop :=
  ∀ (c : Circ) (at_ p : Nat) (s : State),
    let k := s.circuits[c]
    let tr := k.tracker
    tr.locked = true → tr.pbar = some p → tr.compareAt = some at_ → at_ ≤ s.now →
    ∃ k', exec (.missedFlash c) s = .next (reevaluatePeriod s (s.setC c k')) ∧
      (let on := { k with tracker := { tr with miss := tr.miss + 1, compareAt := some (at_ + p) } }
      (tr.miss = 0 → k' = on) ∧
      (tr.miss = 1 → (tr.activity ≠ .active ∨ k.energized = true) → k' = on) ∧
      (tr.miss = 1 → tr.activity = .active → k.energized = false → k.queue.length < 2 →
        k' = { on with queue := k.queue ++ [Rec.missed (tr.prevOn.getD 0) at_] }) ∧
      (∀ a b, tr.miss = 1 → tr.activity = .active → k.energized = false → k.queue = [a, b] →
        k' = { on with
          queue := [b, Rec.missed (tr.prevOn.getD 0) at_], glitch := min 65535 (k.glitch + 1) }) ∧
      (tr.miss = 2 → k' = { k with tracker := { tr with
        locked := false, window := [], pbar := none, disagree := 0, miss := 0, compareAt := none, prevOn := none
        silenceAt := if tr.activity = .active then some (s.now + 2000) else tr.silenceAt } }))

/-- R27, R34, R37, R41 to R43, R45: a silence deadline of a dark circuit makes a missed-flash record and moves on; a
linger end returns a circuit to DORMANT and to windows; a steady window closes at the next multiple of 250 ms, an
ON-phase record at 2000 ms marked HELD ON, and the next record opens there. A third queued record pushes out the oldest
with a count. -/
def Obligations.TimedRecordsCloseAndOpen : Prop :=
  ∀ (c : Circ) (at_ : Nat) (s : State),
    let k := s.circuits[c]
    let pushed := fun (x : Rec) (k : Circuit) =>
      if k.queue.length < 2 then { k with queue := k.queue ++ [x] }
      else { k with queue := k.queue.drop 1 ++ [x], glitch := min 65535 (k.glitch + 1) }
    (k.tracker.locked = false → k.tracker.activity = .active → k.tracker.silenceAt = some at_ → at_ ≤ s.now →
      let on := { k with tracker := { k.tracker with silenceAt := some (at_ + 2000) } }
      (k.energized = true → exec (.silenceDeadline c) s = .next (s.setC c on)) ∧
      (k.energized = false → exec (.silenceDeadline c) s =
        .next (s.setC c (pushed (Rec.missed (at_ - 2000) at_) on)))) ∧
    (k.tracker.activity = .lingering → k.tracker.lingerAt = some at_ → at_ ≤ s.now →
      let ended := fun k : Circuit =>
        { k with tracker := .dormant, opened := some (Rec.open .window s.now k.energized) }
      (k.opened = none → exec (.lingerEnd c) s = .next (reevaluatePeriod s (s.setC c (ended k)))) ∧
      (∀ r, k.opened = some r → r.start = s.now →
        exec (.lingerEnd c) s = .next (reevaluatePeriod s (s.setC c (ended k)))) ∧
      (∀ r, k.opened = some r → r.start ≠ s.now → exec (.lingerEnd c) s =
        .next (reevaluatePeriod s (s.setC c (ended (pushed { r with finish := s.now } k)))))) ∧
    (∀ r, k.opened = some r → r.kind = .window → (r.start / 250 + 1) * 250 ≤ s.now →
      let e := (r.start / 250 + 1) * 250
      exec (.windowClose c) s =
        .next (s.setC c { pushed { r with finish := e } k with opened := some (Rec.open .window e k.energized) })) ∧
    (∀ r, k.opened = some r → r.kind = .onPhase → r.start + 2000 ≤ s.now →
      let e := r.start + 2000
      exec (.heldOnClose c) s = .next (s.setC c
        { pushed { r with finish := e, heldOn := true } k with opened := some (Rec.open .onPhase e true) }))

/-- R46, R47, R55, R60, R63, R74, R84, R101: what the record at the front of a circuit's queue leaves when it is taken:
the verdict of the settled expected state, the circuit's last record, and, unless the station coasts, the verdict taken
by the filter and the lamp sample handed to the reference unit. The write engine, where it is free, has nothing waiting
(R109). -/
def Obligations.RecordTakenForJudgement : Prop :=
  ∀ (c : Circ) (r : Rec) (rest : List Rec) (s : State),
    let k := s.circuits[c]
    s.writeLaw = true → k.queue = r :: rest → r.finish + 300 ≤ s.now →
    ∃ t, exec (.takenForJudgement c) s = .next t ∧
      t = { s with
        circuits := t.circuits, writes := t.writes, balance := t.balance, faults := t.faults, warn := t.warn
        events := t.events, flags := t.flags, link := t.link, tell := t.tell } ∧
      (s.isHead = false → t.balance = s.balance ∧ t.faults = s.faults ∧ t.warn = s.warn ∧ t.events = s.events ∧
        t.flags = s.flags) ∧
      (∀ d : Circ, d ≠ c → t.circuits[d] = s.circuits[d]) ∧
      (let k' := t.circuits[c]
      let v := (settled s.ring k.cfg.fn r.start r.finish).bind (s.verdict k r)
      let im := if r.n = 0 then 0 else (r.sumI + r.n / 2) / r.n
      k' = { k with queue := rest, last := some ⟨r.kind, im, v⟩, filter := k'.filter, ref := k'.ref } ∧
      (v = none ∨ s.coasting = true → k'.filter = k.filter ∧ k'.ref = k.ref ∧ t.writes = s.writes) ∧
      (∀ w, v = some w → s.coasting = false →
        k'.filter = (k.filter.take ⟨w.kind, w.lamp.map LampStages.m, w.attribution, w.front, none⟩).1 ∧
        (w.lamp = none → k'.ref = k.ref ∧ t.writes = s.writes) ∧
        (∀ l, w.lamp = some l →
          k'.ref = (s.handSample c l.inorm).circuits[c].ref ∧ t.writes = (s.handSample c l.inorm).writes)))

/-- R64 to R73, R75 to R78: the verdict of every record that passed the settle rule, by load kind, expected state, record
kind and content; none is thin. -/
def Obligations.VerdictOfEveryRecord : Prop :=
  ∀ (k : Circuit) (r : Rec) (s : State),
    let im := if r.n = 0 then 0 else (r.sumI + r.n / 2) / r.n
    let vm := if r.n = 0 then 0 else (r.sumV + r.n / 2) / r.n
    let lit := r.initial = true ∧ r.edges = 0
    let dark := r.initial = false ∧ r.edges = 0
    let ref := k.ref.iref.getD (k.cfg.n * k.cfg.rating * 10)
    let inorm := normalise k.cfg.kind im vm
    let stage := classifyLamp inorm k.cfg.n ref
    let stages : LampStages := ⟨inorm, ref, k.ref.iref.isNone, stage.2, k.cfg.n⟩
    let findings : Findings :=
      if r.heldOn = true then ⟨false, false, false, true⟩
      else match r.note with
        | none => ⟨false, false, false, false⟩
        | some n => ⟨n.period, n.duty, n.mismatch, false⟩
    let plain := fun kind : Option FaultKind => (⟨kind, none, ⟨false, false, false, false⟩, none, none⟩ : Verdict)
    let noSupply : Verdict := { plain (some .noSupply) with
      attribution := some (s.attribute k.cfg.fn).1, front := (s.attribute k.cfg.fn).2 }
    let lamp := k.cfg.kind = .incandescent ∨ k.cfg.kind = .led
    let found := findings ≠ ⟨false, false, false, false⟩
    (k.cfg.kind = .notFitted → ∀ x, s.verdict k r x = none) ∧
    (r.kind = .window →
      s.verdict k r .flashing = none ∧
      (k.cfg.kind ≠ .notFitted → dark → s.verdict k r .off = some (plain none) ∧
        s.verdict k r .on = some noSupply) ∧
      (k.cfg.kind ≠ .notFitted → ¬ dark → s.verdict k r .off = some (plain (some .stray))) ∧
      (k.cfg.kind = .feed → ¬ lit → ¬ dark → s.verdict k r .on = none) ∧
      (lamp → r.edges = 1 → s.verdict k r .on = none) ∧
      (lamp → 2 ≤ r.edges → s.verdict k r .on = some (plain (some .flicker))) ∧
      (lit → r.n < 5 ∨ vm < 18000 → s.verdict k r .on = none) ∧
      (k.cfg.kind = .feed → lit → 5 ≤ r.n → 18000 ≤ vm → s.verdict k r .on = some (plain none)) ∧
      (lamp → lit → 5 ≤ r.n → 18000 ≤ vm →
        s.verdict k r .on = some { plain stage.1 with lamp := some stages })) ∧
    (r.kind = .onPhase →
      s.verdict k r .on = none ∧
      (k.cfg.kind ≠ .notFitted → s.verdict k r .off = some (plain (some .stray))) ∧
      (k.cfg.kind = .feed → ¬ found → s.verdict k r .flashing = some (plain none)) ∧
      (k.cfg.kind = .feed → found → s.verdict k r .flashing =
        some { plain (some .cadence) with findings := findings }) ∧
      (lamp → r.n < 2 ∨ vm < 18000 → ¬ found → s.verdict k r .flashing = none) ∧
      (lamp → r.n < 2 ∨ vm < 18000 → found → s.verdict k r .flashing =
        some { plain (some .cadence) with findings := findings }) ∧
      (lamp → 2 ≤ r.n → 18000 ≤ vm → stage.1 ≠ none ∨ ¬ found → s.verdict k r .flashing =
        some { plain stage.1 with lamp := some stages }) ∧
      (lamp → 2 ≤ r.n → 18000 ≤ vm → stage.1 = none → found → s.verdict k r .flashing =
        some { plain (some .cadence) with lamp := some stages, findings := findings })) ∧
    (r.kind = .missedFlash → s.verdict k r .on = none ∧ s.verdict k r .off = none ∧
      (k.cfg.kind ≠ .notFitted → s.verdict k r .flashing = some noSupply))

/-- R75, R160 to R162: the attribution of a supply loss of a function: TRACTOR on a head, UNATTRIBUTED without a rank,
and otherwise by the first slot ahead that is not passed over. That the age class is the one the entry holds at this
point of the millisecond is the model's choice (log entry 34). -/
def Obligations.SupplyLossIsAttributed : Prop :=
  ∀ (f : LampFn) (s : State),
    let counts := fun (x : Rank) (k : CircuitReport) =>
      k.fn = f ∧ (x = 0 ∧ k.kind = .feed ∨ x ≠ 0 ∧ (k.kind = .incandescent ∨ k.kind = .led))
    let decides := fun x : Rank => ∃ e, s.roster.slots[x] = some e ∧ e.aged = false ∧
      ∃ c : Circ, counts x e.report.circuits[c]
    let shows := fun k : CircuitReport => k.energized = true ∨ (f = .leftTurn ∨ f = .rightTurn) ∧ 0 < k.mean
    (s.isHead = true → s.attribute f = (.tractor, none)) ∧
    (s.isHead = false → (∀ r, s.rank.state ≠ .ranked r) → s.attribute f = (.unattributed, none)) ∧
    (∀ r, s.isHead = false → s.rank.state = .ranked r → (∀ x, x < r → ¬ decides x) →
      s.attribute f = (.unattributed, none)) ∧
    (∀ r x e, s.isHead = false → s.rank.state = .ranked r → x < r → decides x →
      (∀ y, x < y → y < r → ¬ decides y) → s.roster.slots[x] = some e →
      ((∃ c : Circ, counts x e.report.circuits[c] ∧ shows e.report.circuits[c]) →
        s.attribute f = (.coupling, some x.val)) ∧
      ((∀ c : Circ, counts x e.report.circuits[c] → ¬ shows e.report.circuits[c]) →
        s.attribute f = (.shadowed, none)))

/-- R101, R103, R104, R109: a lamp sample handed to a circuit: ignored, accepted, restarting, and the eighth, which
adopts its Iref or fails OUT OF RANGE. An adopted Iref waits for its write, in place of one of the same circuit that
still waits, or starts it at once in an engine that is free. -/
def Obligations.LampSamplesTeachReference : Prop :=
  ∀ (c : Circ) (x : Nat) (s : State),
    let k := s.circuits[c]
    let u := k.ref
    let mean := (u.sum + u.k / 2) / u.k
    let agrees := u.k = 0 ∨ absDiff x mean * 8 ≤ mean
    let iref := (u.sum + x + 4) / 8
    let nominal := k.cfg.n * k.cfg.rating * 10
    let inWindow := (nominal + 1) / 2 ≤ iref ∧ iref ≤ (3 * nominal + 1) / 2 ∧ 1 ≤ iref ∧ iref ≤ 10920
    let taught := fun (v : RefUnit) => s.setC c { k with ref := v }
    let adopted := fun save : SaveState => taught { u with
      learn := .learned, iref := some iref, outcome := .done, k := 0, sum := 0, deadline := none, save := save }
    (u.learn ≠ .learning → s.handSample c x = s) ∧
    (u.learn = .learning → ¬ agrees → s.handSample c x = taught { u with k := 1, sum := x }) ∧
    (u.learn = .learning → agrees → u.k < 7 → s.handSample c x = taught { u with k := u.k + 1, sum := u.sum + x }) ∧
    (u.learn = .learning → agrees → 7 ≤ u.k → ¬ inWindow → s.handSample c x = taught { u with
      learn := if u.iref = none then .unlearned else .learned, outcome := .failedOutOfRange, k := 0, sum := 0
      deadline := none }) ∧
    (u.learn = .learning → agrees → 7 ≤ u.k → inWindow →
      (∀ w, s.writes.current = some w → (∀ q ∈ s.writes.queue, q.circuit ≠ c) → s.handSample c x =
        { adopted .waiting with writes := { s.writes with queue := s.writes.queue ++ [⟨c, iref⟩] } }) ∧
      (∀ w pre q post, s.writes.current = some w → s.writes.queue = pre ++ q :: post → q.circuit = c →
        (∀ y ∈ pre ++ post, y.circuit ≠ c) → s.handSample c x =
        { adopted .waiting with writes := { s.writes with queue := pre ++ ⟨c, iref⟩ :: post } }) ∧
      (s.writes = ⟨[], none, none⟩ → s.handSample c x = { adopted .writing with
        writes := ⟨[], none, some ⟨.reference c, withCheck [BitVec.ofNat 8 iref, BitVec.ofNat 8 (iref / 256)],
          s.now + 10⟩⟩ }))

/-- R7, R37, R49, R52: how the head looks at its reported period again: no source, the same source within 20 ms, and a
period to take; what a new epoch enters in the ring and queues. A unit reports no period. -/
def Obligations.ReportedPeriodFollowsFeeds : Prop :=
  ∀ (before s : State),
    (s.isHead = false → reevaluatePeriod before s = s) ∧
    (s.isHead = true →
      let isFeed := fun (f : LampFn) (c : Circ) => s.circuits[c].cfg.kind = .feed ∧ s.circuits[c].cfg.fn = f ∧
        ∀ d : Circ, d < c → ¬ (s.circuits[d].cfg.kind = .feed ∧ s.circuits[d].cfg.fn = f)
      let locked := fun (f : LampFn) (c : Circ) => isFeed f c ∧ s.circuits[c].tracker.locked = true
      let source := fun c : Circ => locked .leftTurn c ∨ (∀ d, ¬ locked .leftTurn d) ∧ locked .rightTurn c
      ((∀ c, ¬ source c) →
        (s.source.reported = 0 → reevaluatePeriod before s = { s with source := { s.source with lastSource := none } }) ∧
        (s.source.reported ≠ 0 → reevaluatePeriod before s =
          { s with source := { s.source with lastSource := none, reported := 0 } }.epochChange)) ∧
      (∀ c p, source c → s.circuits[c].tracker.pbar = some p →
        let due := before.circuits[c].tracker.locked = false ∨ s.source.lastSource ≠ some c ∨
          20 < absDiff p s.source.reported
        (¬ due → reevaluatePeriod before s = s) ∧
        (due → p = s.source.reported → reevaluatePeriod before s =
          { s with source := { s.source with lastSource := some c } }) ∧
        (due → p ≠ s.source.reported → reevaluatePeriod before s =
          { s with source := { s.source with lastSource := some c, reported := p } }.epochChange))) ∧
    (s.isSilent = false → ∃ t, s.epochChange = t ∧
      t = { s with source := t.source, ring := t.ring, circuits := t.circuits, link := t.link } ∧
      t.source = { s.source with epoch := s.source.epoch + 1, resendAt := s.now + 250 } ∧
      (let e : RingEntry := ⟨s.source.epoch + 1, intentStates s.intent.debounced, s.source.reported, s.intent.crank, s.now⟩
      (s.ring.length < 8 → t.ring = s.ring ++ [e]) ∧ (s.ring.length = 8 → t.ring = s.ring.drop 1 ++ [e])) ∧
      t.link.slots = { s.link.slots with command := some t.commandContent.encode })

/-- R77, R78, R84, R89, R167 to R171, R185: on the head, a window of a steady function's balance feed taken for judgement
forms a balance record, thin by the first reason that holds, or the result of Ihead and the currents of slots 1 to 7;
one that is not thin is taken by the balance filter, which confirms, changes or clears the entry LEAKAGE. That the age
class is the one the entry holds at this point of the millisecond is the model's choice (log entry 34). -/
def Obligations.FeedWindowFormsBalance : Prop :=
  ∀ (c : Circ) (r : Rec) (rest : List Rec) (s : State),
    let k := s.circuits[c]
    let f := k.cfg.fn
    s.isHead = true → k.cfg.kind = .feed → s.balanceFeed f = some c → f ≠ .leftTurn → f ≠ .rightTurn →
    k.queue = r :: rest → r.finish + 300 ≤ s.now → r.kind = .window →
    ∃ t res, exec (.takenForJudgement c) s = .next t ∧
      t = { s with
        circuits := t.circuits, balance := t.balance, faults := t.faults, warn := t.warn, events := t.events
        flags := t.flags, link := t.link, tell := t.tell } ∧
      (∀ d : Circ, d ≠ c → t.circuits[d] = s.circuits[d]) ∧ t.circuits[c].queue = rest ∧
      t.balance.results = put s.balance.results f.idx (some ⟨res, s.now⟩) ∧
      t.balance.unlistedAt = s.balance.unlistedAt ∧
      (let im := if r.n = 0 then 0 else (r.sumI + r.n / 2) / r.n
      let vm := if r.n = 0 then 0 else (r.sumV + r.n / 2) / r.n
      let clean := settled s.ring f r.start r.finish = some .on ∧ r.initial = true ∧ r.edges = 0 ∧ 5 ≤ r.n ∧ 18000 ≤ vm
      let counts := fun k : CircuitReport => k.fn = f ∧ (k.kind = .incandescent ∨ k.kind = .led)
      let stale := ∃ (x : Rank) (e : RosterEntry), x ≠ 0 ∧ s.roster.slots[x] = some e ∧ e.aged = true
      let unjudged := ∃ (x : Rank) (e : RosterEntry) (c : Circ), x ≠ 0 ∧ s.roster.slots[x] = some e ∧
        counts e.report.circuits[c] ∧ e.report.circuits[c].judged = false
      let share := fun (x : Rank) (c : Circ) => match s.roster.slots[x] with
        | none => 0
        | some e => if x ≠ 0 ∧ counts e.report.circuits[c] then e.report.circuits[c].mean else 0
      let sum := Finset.univ.sum fun x : Rank => Finset.univ.sum fun c : Circ => share x c
      let g := s.balance.filters[f.idx]
      let key : Key := ⟨s.cfg.serial, .leakage, none, some f⟩
      (clean → (t.circuits[c].last.bind LastRecord.verdict) = some (.plain none)) ∧
      (¬ clean → res = .thin .feed) ∧
      (clean → s.coasting = true → res = .thin .coast) ∧
      (clean → s.coasting = false → s.roster.unplaced ≠ [] → res = .thin .unplaced) ∧
      (clean → s.coasting = false → s.roster.unplaced = [] → s.balance.unlistedAt ≠ none → res = .thin .unlisted) ∧
      (clean → s.coasting = false → s.roster.unplaced = [] → s.balance.unlistedAt = none → stale → res = .thin .stale) ∧
      (clean → s.coasting = false → s.roster.unplaced = [] → s.balance.unlistedAt = none → ¬ stale → unjudged →
        res = .thin .unjudged) ∧
      (clean → s.coasting = false → s.roster.unplaced = [] → s.balance.unlistedAt = none → ¬ stale → ¬ unjudged →
        res = balanceOf im sum) ∧
      (∀ why, res = .thin why → t.balance.filters = s.balance.filters) ∧
      (∀ x, res = .clean x → t.balance.filters = put s.balance.filters f.idx (g.take ⟨none, none, none, none, none⟩).1 ∧
        (g.confirmed = some .leakage → g.clear = 4 →
          ((t.faults.entryOf key).all fun e => e.state == .cleared) = true)) ∧
      (∀ sg x, res = .leakage sg x →
        t.balance.filters = put s.balance.filters f.idx (g.take ⟨some .leakage, none, none, none, some sg⟩).1 ∧
        (g.candidate = some .leakage → g.confirm = 2 → g.confirmed = none → s.faults.entryOf key = none →
          s.faults.entries.length < 32 →
          (t.faults.entryOf key).map (fun e => (e.state, e.severity, e.details.sign, e.occurrences, e.rankConf)) =
            some (.active, .major, some sg, 1, some 0)) ∧
        (∀ e, g.confirmed = some .leakage → g.sign ≠ some sg → s.faults.entryOf key = some e → e.state = .active →
          (t.faults.entryOf key).map (fun e => (e.state, e.details.sign)) = some (.active, some sg))))

/-! ## The head's commands, tellings and coast causes -/

/-- R48, R49: on the head a line's 30th opposite read changes its debounced value, raises the epoch, enters the new
intent in the ring and queues a COMMAND; the re-send timer queues the current one again. That FRESH START reads the
count in its 32 bits is DEDUCED (log entry 4). -/
def Obligations.IntentChangeIssuesEpoch : Prop :=
  ∀ s : State, s.isHead = true → s.isSilent = false →
    (∀ f : Fin 8, 30 ≤ s.intent.counts[f] →
      ∃ t, exec (.intentDebounce (.int f)) s = .next t ∧
        t = { s with
          intent := t.intent, source := t.source, ring := t.ring, circuits := t.circuits, link := t.link, tell := t.tell
          events := t.events, flags := t.flags } ∧
        t.intent.debounced[f] = !s.intent.debounced[f] ∧ t.intent.counts[f] = 0 ∧ t.intent.crank = s.intent.crank ∧
        (∀ g : Fin 8, g ≠ f → t.intent.debounced[g] = s.intent.debounced[g]) ∧
        t.source = { s.source with epoch := s.source.epoch + 1, resendAt := s.now + 250 } ∧
        t.ring.getLast? = some ⟨s.source.epoch + 1, intentStates t.intent.debounced, s.source.reported,
          s.intent.crank, s.now⟩ ∧
        t.link.slots.command = some t.commandContent.encode) ∧
    (30 ≤ s.intent.crankCount →
      ∃ t, exec (.intentDebounce .crank) s = .next t ∧ t.intent.crank = (!s.intent.crank) ∧
        t.intent.debounced = s.intent.debounced ∧ t.source.epoch = s.source.epoch + 1 ∧
        t.activeCauses.cranking = (!s.intent.crank) ∧ t.link.slots.command = some t.commandContent.encode) ∧
    (s.source.resendAt ≤ s.now →
      ∃ t, exec .reSendTimer s = .next t ∧ t = { s with source := t.source, link := t.link } ∧
        t.source = { s.source with resendAt := s.now + 250 } ∧
        t.link.slots = { s.link.slots with command := some s.commandContent.encode }) ∧
    (∀ f : LampFn, (intentStates s.intent.debounced)[f.idx] = (match s.intent.debounced[f.idx], f with
      | false, _ => .off
      | true, .leftTurn => .flashing
      | true, .rightTurn => .flashing
      | true, _ => .on)) ∧
    s.commandContent.fresh = decide (s.now % 4294967296 < 2000) ∧ s.commandContent.epoch = s.source.epoch ∧
      s.commandContent.period = s.source.reported ∧ s.commandContent.crank = s.intent.crank

/-- R53, R125, R136, R155, R172, R176, R195: the STATUS timer, the holdoff, the staleness timer, the end of a unit's head
clash, the half of BLINK, the
train-second, the unlisted deadline and the ALONE timer. Model's choice (log entry 2): a row that is not due leaves the
state. -/
def Obligations.TimersOfTheStation : Prop :=
  ∀ s : State,
    (s.tell.statusAt ≤ s.now → ∃ t, exec .statusTimer s = .next t ∧ t = { s with link := t.link, tell := t.tell } ∧
      t.tell.statusAt = s.now + 500 ∧ t.tell.holdoffAt = s.now + 100 ∧ t.tell.waiting = false ∧
      (s.isSilent = false → t.link.slots = { s.link.slots with status := some s.report.encode }) ∧
      (s.isSilent = true → t.link = s.link)) ∧
    (s.tell.waiting = true → s.tell.holdoffAt ≤ s.now →
      ∃ t, exec .holdoff s = .next t ∧ t = { s with link := t.link, tell := t.tell } ∧
        t.tell.statusAt = s.now + 500 ∧ t.tell.holdoffAt = s.now + 100 ∧ t.tell.waiting = false ∧
        (s.isSilent = false → t.link.slots = { s.link.slots with status := some s.report.encode })) ∧
    (∀ at_, s.isHead = false → s.cmd.staleAt = some at_ → at_ ≤ s.now →
      ∃ t, exec .stalenessTimer s = .next t ∧ t = { s with cmd := t.cmd, link := t.link, tell := t.tell } ∧
        t.cmd = { s.cmd with staleAt := none } ∧ t.activeCauses.commandLost = true) ∧
    (∀ at_, s.isHead = false → s.headClashAt = some at_ → at_ ≤ s.now →
      ∃ t, exec .headClashDeadline s = .next t ∧ t = { s with headClashAt := none, tell := t.tell, link := t.link } ∧
        t.activeCauses.headClash = false ∧
        (s.tell.holdoffAt ≤ s.now → t.tell.statusAt = s.now + 500 ∧ t.tell.holdoffAt = s.now + 100 ∧
          t.tell.waiting = false ∧
          (s.isSilent = false → t.link.slots = { s.link.slots with status := some t.report.encode })) ∧
        (s.now < s.tell.holdoffAt → s.tell.expiredAt ≠ some s.now → t.link = s.link ∧
          t.tell = { s.tell with waiting := true, clashEnd := some s.now })) ∧
    (∀ at_, s.warn.state = .blink → s.warn.toggleAt = some at_ → at_ ≤ s.now → exec .warnBlinkHalf s =
      .next { s with warn := ⟨.blink, !s.warn.pin, some (at_ + 500)⟩ }) ∧
    (s.isHead = true → s.secondAt ≤ s.now → exec .trainSeconds s =
      .next { s with trainSeconds := s.trainSeconds + 1, secondAt := s.secondAt + 1000 }) ∧
    (∀ at_, s.balance.unlistedAt = some at_ → at_ ≤ s.now → exec .unlistedDeadline s =
      .next { s with balance := { s.balance with unlistedAt := none } }) ∧
    (∀ at_, s.link.presence = .listening → s.link.aloneAt = some at_ → at_ ≤ s.now → exec .aloneTimer s =
      .next { s with link := { s.link with presence := .alone s.cfg.strapRate, aloneAt := none } }) ∧
    (s.warn.state ≠ .blink → exec .warnBlinkHalf s = .next s) ∧ (s.isHead = false → exec .trainSeconds s = .next s) ∧
    (∀ r, s.link.presence = .alone r ∨ s.link.presence = .joined r → exec .aloneTimer s = .next s)

/-- R155, R185: a COMMAND delivered to a head is clashing; the first of a clash makes the CRITICAL entry HEAD CLASH and
WARN BLINK; the deadline ends the clash and clears the entry. A clash that begins in the millisecond in which another
ended leaves one STATUS, formed after both (the model's reading of the fold: log entry 19). -/
def Obligations.HeadClashOnHead : Prop :=
  ∀ s : State, s.isHead = true →
    (∀ (h : RxHeader) (p : BitVec 64) (m : CommandContent),
      s.link.receiver.delivers = true → CommandContent.decode p = some m →
      ∃ t, exec (.commandTelegram h p) s = .next t ∧ t.headClashAt = some (s.now + 1500) ∧ t.cmd = s.cmd ∧
      t.ring = s.ring ∧ t.circuits = s.circuits ∧ t.source = s.source ∧
      (s.headClashAt.isSome = true → t.faults = s.faults ∧ t.events = s.events ∧ t.warn = s.warn) ∧
      (s.headClashAt = none → s.faults.entryOf (stationKey s.cfg.serial .headClash) = none →
        s.faults.entries.length < 32 → t.warn.state = .blink ∧
        (t.faults.entryOf (stationKey s.cfg.serial .headClash)).map
          (fun e => (e.severity, e.state, e.acked, e.occurrences, e.rankConf)) =
            some (.critical, .active, false, 1, some 0))) ∧
    (∀ at_, s.headClashAt = some at_ → at_ ≤ s.now →
      ∃ u, exec .headClashDeadline s = .next u ∧ u.headClashAt = none ∧ u.activeCauses.headClash = false ∧
        u.circuits = s.circuits ∧
        ((u.faults.entryOf (stationKey s.cfg.serial .headClash)).all fun e => e.state == .cleared) = true ∧
        (∀ (h : RxHeader) (p : BitVec 64) (m : CommandContent), s.isSilent = false → s.tell.holdoffAt ≤ s.now →
          s.link.receiver.delivers = true → CommandContent.decode p = some m →
          u.tell.holdoffAt = s.now + 100 ∧ u.link.slots.status = some u.report.encode ∧
          ∃ t, exec (.commandTelegram h p) u = .next t ∧ t.activeCauses.headClash = true ∧ t.tell.waiting = false ∧
            t.tell.holdoffAt = s.now + 100 ∧ t.link.slots.status = some t.report.encode))

/-! ## Telegrams -/

/-- R116, R119, R120, R122, R125, R126, R217: in HUNT a measured width within 12% of a table rate's bit time and a rate
mark put the receiver in VERIFY at that rate; a good telegram of any kind passes VERIFY, and the second enters SYNCED and
JOINED at the lower rate; it restarts the ALONE timer and ends the bad run; a payload out of range counts as an error;
a bad telegram is counted in SYNCED, and the eighth in a row or one in VERIFY ends in HUNT. Model's choices: the exact
bounds with both ends (log entry 21), a BAD_TELEGRAM in HUNT (log entry 2), an ALONE station's timer (log entry 15),
and the line counts that a row leaves (log entry 6). -/
def Obligations.ReceiverFindsAndLosesRate : Prop :=
  ∀ (quietNs widthNs : Nat) (cs : List RxChar) (s : State),
    let heard := { s.link with gapNs := 0, lineNs := 0 }
    let hears := fun (i : Instr) => exec i s = .next { s with link := heard }
    (∀ r : Rate, s.link.receiver = .hunt → 30 * 1000000000 ≤ quietNs * 115200 →
      88 * 1000000000 ≤ 100 * widthNs * r.bps → 100 * widthNs * r.bps ≤ 112 * 1000000000 →
      exec (.candidateStart quietNs widthNs false ⟨0x55#8, true⟩) s =
        .next { s with link := { heard with receiver := .verify r false } } ∧
      hears (.candidateStart quietNs widthNs true ⟨0x55#8, true⟩) ∧
      (∀ c : RxChar, c ≠ ⟨0x55#8, true⟩ → hears (.candidateStart quietNs widthNs false c))) ∧
    ((∀ r : Rate, 100 * widthNs * r.bps < 88 * 1000000000 ∨ 112 * 1000000000 < 100 * widthNs * r.bps) ∨
        quietNs * 115200 < 30 * 1000000000 ∨ s.link.receiver ≠ .hunt →
      ∀ driving c, hears (.candidateStart quietNs widthNs driving c)) ∧
    (∀ why k, rxTest cs = .bad why k →
      (s.link.receiver = .hunt → hears (.badTelegram cs)) ∧
      (∀ r passed, s.link.receiver = .verify r passed →
        exec (.badTelegram cs) s = .next { s with link := { heard with receiver := .hunt, badRun := 0 } }) ∧
      (∀ r, s.link.receiver = .synced r →
        exec (.badTelegram cs) s = .next { s with link := { heard with
          errors := s.link.errors.raise k
          receiver := if 7 ≤ s.link.badRun then .hunt else .synced r
          badRun := if 7 ≤ s.link.badRun then 0 else s.link.badRun + 1 } })) ∧
    (∀ (h : RxHeader) (pc : BitVec 64) (pl pq : BitVec 24) (pr : BitVec 104) (ps : BitVec 288),
      (∀ i ∈ [Instr.commandTelegram h pc, .learnTelegram h pl, .queryTelegram h pq, .readingTelegram h pr,
          .statusTelegram h ps],
        (s.link.receiver = .hunt → hears i) ∧
        (s.link.receiver ≠ .hunt → ∃ t, exec i s = .next t ∧ t.link.badRun = 0 ∧ t.link.gapNs = 0 ∧ t.link.lineNs = 0 ∧
          (∀ x, s.link.presence = .alone x → t.link.aloneAt = s.link.aloneAt) ∧
          ((∀ x, s.link.presence ≠ .alone x) → t.link.aloneAt = some (s.now + 2000)) ∧
          (∀ r, s.link.receiver = .verify r false → t.link.receiver = .verify r true ∧
            t.link.presence = s.link.presence) ∧
          (∀ r, s.link.receiver = .verify r true → t.link.receiver = .synced r ∧
            (∀ x, s.link.presence = .joined x → t.link.presence = .joined (if r.bps < x.bps then r else x)) ∧
            ((∀ x, s.link.presence ≠ .joined x) → t.link.presence = .joined r)) ∧
          (∀ r, s.link.receiver = .synced r → t.link.receiver = .synced r ∧ t.link.presence = s.link.presence))) ∧
      (s.link.receiver ≠ .hunt →
        let counted := fun (i : Instr) (errors : LinkErrors) =>
          ∃ t, exec i s = .next t ∧ t = { s with link := t.link } ∧ t.link.errors = errors ∧
            t.link.slots = s.link.slots ∧ t.link.tx = s.link.tx
        let n := s.link.errors
        (CommandContent.decode pc = none →
          counted (.commandTelegram h pc) { n with command := min 65535 (n.command + 1) }) ∧
        (queryDecode pq = none → counted (.queryTelegram h pq) { n with query := min 65535 (n.query + 1) }) ∧
        (readingDecode pr = none → counted (.readingTelegram h pr) { n with reading := min 65535 (n.reading + 1) }) ∧
        (Report.decode ps = none → counted (.statusTelegram h ps) { n with status := min 65535 (n.status + 1) })))

/-- R27, R41, R45, R50 to R53, R155: a COMMAND delivered to a unit: new, newer, refresh, stale; one from a sender that is not
eligible is clashing; one without the HEAD flag is discarded. A tracked circuit is told when its function starts or
stops FLASHING: its tracker is activated, with the open window closed as a partial one, lingers, or
resumes. That a refresh keeps the last accepted epoch and sender is
DEDUCED (log entry 12). -/
def Obligations.CommandOnUnit : Prop :=
  ∀ (h : RxHeader) (p : BitVec 64) (m : CommandContent) (s : State),
    s.isHead = false → s.link.receiver.delivers = true → CommandContent.decode p = some m →
    ∃ t, exec (.commandTelegram h p) s = .next t ∧
      t = { s with
        link := t.link, tell := t.tell, cmd := t.cmd, ring := t.ring, circuits := t.circuits
        headClashAt := t.headClashAt } ∧
      (let eligible := h.head = true ∧ ∀ e, s.roster.slots[(0 : Rank)] = some e → e.serial = h.serial
      let fresh := s.cmd.lastSender ≠ some h.serial ∨ m.fresh = true
      let repeats := ∃ e, s.ring.getLast? = some e ∧ e.states = m.states ∧ e.period = m.period ∧ e.crank = m.crank
      let accepted := t.ring = ringAdd s.ring ⟨m.epoch, m.states, m.period, m.crank, s.now⟩ ∧
        t.cmd = ⟨some m.epoch, some h.serial, some (s.now + 1000), s.cmd.staleTally, 10 * m.vs⟩ ∧
        (∀ c : Circ, (currentState s.ring s.circuits[c].cfg.fn = some .flashing ↔
          m.states[s.circuits[c].cfg.fn.idx] = .flashing) → t.circuits[c] = s.circuits[c]) ∧
        (∀ c : Circ, s.circuits[c].cfg.tracks = true → s.circuits[c].tracker.activity = .dormant →
          currentState s.ring s.circuits[c].cfg.fn ≠ some .flashing →
          m.states[s.circuits[c].cfg.fn.idx] = .flashing →
          let k := s.circuits[c]
          let recent := k.lastOn.filter fun q => s.now - q ≤ 2000
          t.circuits[c].tracker = { Tracker.dormant with
            activity := .active, prevOn := recent, phaseStart := if k.energized = true then recent else none
            silenceAt := some (max s.now (recent.getD s.now) + 2000) } ∧
          t.circuits[c].opened = (if k.energized = true then
            some (Rec.open .onPhase (recent.getD s.now) true) else none) ∧
          (∀ w, k.opened = some w → w.start ≠ s.now →
            let partWindow := { w with finish := s.now }
            (k.queue.length < 2 → t.circuits[c].queue = k.queue ++ [partWindow] ∧ t.circuits[c].glitch = k.glitch) ∧
            (∀ x y, k.queue = [x, y] → t.circuits[c].queue = [y, partWindow] ∧
              t.circuits[c].glitch = min 65535 (k.glitch + 1))) ∧
          ((∀ w, k.opened = some w → w.start = s.now) →
            t.circuits[c].queue = k.queue ∧ t.circuits[c].glitch = k.glitch)) ∧
        (∀ c : Circ, s.circuits[c].cfg.tracks = true → s.circuits[c].tracker.activity = .lingering →
          currentState s.ring s.circuits[c].cfg.fn ≠ some .flashing →
          m.states[s.circuits[c].cfg.fn.idx] = .flashing →
          let tr := s.circuits[c].tracker
          t.circuits[c] = { s.circuits[c] with tracker := { tr with
            activity := .active, lingerAt := none
            silenceAt := if tr.locked = true then tr.silenceAt
              else some (max s.now (tr.prevOn.getD s.now) + 2000) } }) ∧
        (∀ c : Circ, s.circuits[c].cfg.tracks = true → s.circuits[c].tracker.activity = .active →
          currentState s.ring s.circuits[c].cfg.fn = some .flashing →
          m.states[s.circuits[c].cfg.fn.idx] ≠ .flashing →
          t.circuits[c] = { s.circuits[c] with tracker := { s.circuits[c].tracker with
            activity := .lingering, lingerAt := some (s.now + 2000), silenceAt := none } })
      let refreshed := t.ring = s.ring ∧ t.circuits = s.circuits ∧
        t.cmd = { s.cmd with staleAt := some (s.now + 1000), headSupply := 10 * m.vs }
      (eligible → t.headClashAt = s.headClashAt) ∧
      (eligible → fresh → s.cmd.lastEpoch = some m.epoch → repeats → refreshed) ∧
      (eligible → fresh → ¬ (s.cmd.lastEpoch = some m.epoch ∧ repeats) → accepted) ∧
      (eligible → ¬ fresh → s.cmd.lastEpoch = some m.epoch → refreshed) ∧
      (∀ last, eligible → ¬ fresh → s.cmd.lastEpoch = some last → 1 ≤ (m.epoch - last).toNat →
        (m.epoch - last).toNat ≤ 127 → accepted) ∧
      (∀ last, eligible → ¬ fresh → s.cmd.lastEpoch = some last → 128 ≤ (m.epoch - last).toNat →
        t.ring = s.ring ∧ t.circuits = s.circuits ∧
        t.cmd = { s.cmd with staleTally := min 65535 (s.cmd.staleTally + 1) }) ∧
      (h.head = true → ¬ eligible →
        t.headClashAt = some (s.now + 1500) ∧ t.cmd = s.cmd ∧ t.ring = s.ring ∧ t.circuits = s.circuits) ∧
      (h.head = false →
        t.headClashAt = s.headClashAt ∧ t.cmd = s.cmd ∧ t.ring = s.ring ∧ t.circuits = s.circuits))

/-- R99, R100, R105: a LEARN is acted on exactly under the three conditions and starts the masked lamp circuits; the
learn deadline returns a circuit to its previous state as NOT LIT. -/
def Obligations.LearnStartsAndExpires : Prop :=
  ∀ s : State,
    (∀ (h : RxHeader) (p : BitVec 24), s.link.receiver.delivers = true →
      let e := p.extractLsb' 0 8
      let stations := p.extractLsb' 8 8
      let circuits := p.extractLsb' 16 8
      let acts := s.isHead = false ∧ h.head = true ∧
        (∀ x, s.roster.slots[(0 : Rank)] = some x → x.serial = h.serial) ∧
        (∃ r, s.rank.state = .ranked r ∧ stations.getLsbD r.val = true) ∧ s.actedEpoch ≠ some e
      ∃ t, exec (.learnTelegram h p) s = .next t ∧
      t = { s with circuits := t.circuits, actedEpoch := t.actedEpoch, link := t.link, tell := t.tell } ∧
      (¬ acts → t.circuits = s.circuits ∧ t.actedEpoch = s.actedEpoch) ∧
      (acts → t.actedEpoch = some e ∧ ∀ c : Circ,
        ((circuits.getLsbD c.val = true ∧ (s.circuits[c].cfg.kind = .incandescent ∨ s.circuits[c].cfg.kind = .led)) →
          t.circuits[c] = { s.circuits[c] with ref := { s.circuits[c].ref with
            learn := .learning, k := 0, sum := 0, deadline := some (s.now + 30000), epoch := some e } }) ∧
        (¬ (circuits.getLsbD c.val = true ∧
            (s.circuits[c].cfg.kind = .incandescent ∨ s.circuits[c].cfg.kind = .led)) →
          t.circuits[c] = s.circuits[c]))) ∧
    (∀ (c : Circ) (at_ : Nat), s.circuits[c].ref.learn = .learning → s.circuits[c].ref.deadline = some at_ →
      at_ ≤ s.now →
      ∃ t, exec (.learnDeadline c) s = .next t ∧ t = { s with circuits := t.circuits, link := t.link, tell := t.tell } ∧
        (∀ d : Circ, d ≠ c → t.circuits[d] = s.circuits[d]) ∧
        t.circuits[c] = { s.circuits[c] with ref := { s.circuits[c].ref with
          learn := if s.circuits[c].ref.iref.isSome = true then .learned else .unlearned
          outcome := .failedNotLit, k := 0, sum := 0, deadline := none } })

/-- R124, R210, R211: a QUERY starts a spot reading on the unit at its target rank and on no other station; a READING
completes the head's matching query, and any other counts as late. -/
def Obligations.QueryAndReadingTelegrams : Prop :=
  ∀ (h : RxHeader) (p : BitVec 24) (q : BitVec 104) (s : State), s.link.receiver.delivers = true →
    (∀ tag target c, queryDecode p = some (tag, target, c) →
      ∃ t, exec (.queryTelegram h p) s = .next t ∧
        t = { s with link := t.link, spot := t.spot, conv := t.conv } ∧ t.spot.waiting = s.spot.waiting ∧
        (let takes := s.isHead = false ∧ h.head = true ∧
          (∀ x, s.roster.slots[(0 : Rank)] = some x → x.serial = h.serial) ∧
          (∃ r, s.rank.state = .ranked r ∧ target = BitVec.ofNat 8 r.val)
        (takes → t.spot.reading = some ⟨tag, c, 0, 0, 0⟩) ∧
        (¬ takes → t.spot = s.spot ∧ t.conv = s.conv))) ∧
    (∀ tag c d, readingDecode q = some (tag, c, d) →
      ∃ t, exec (.readingTelegram h q) s = .next t ∧
        t = { s with link := t.link, query := t.query, events := t.events, flags := t.flags } ∧
        (s.isHead = false → t.query = s.query ∧ t.events = s.events) ∧
        (∀ o, s.isHead = true → s.query.outstanding = some o → o.tag = tag → o.serial = h.serial → o.circuit = c →
          t.query = { s.query with outstanding := none, result := .done o d } ∧
          (s.events.length < 16 → t.events = s.events ++ [⟨.spotDone o.serial o.tag false, s.trainSeconds⟩])) ∧
        (s.isHead = true →
          (∀ o, s.query.outstanding = some o → ¬ (o.tag = tag ∧ o.serial = h.serial ∧ o.circuit = c)) →
          t.query = { s.query with late := min 65535 (s.query.late + 1) } ∧ t.events = s.events))

/-- R147 to R151: where a STATUS delivered to a unit is placed, and that no other part of the station follows from
it. -/
def Obligations.StatusPlacement : Prop :=
  ∀ (h : RxHeader) (p : BitVec 288) (rep : Report) (s : State),
    s.isHead = false → s.link.receiver.delivers = true → Report.decode p = some rep →
    ∃ t, exec (.statusTelegram h p) s = .next t ∧ t = { s with link := t.link, roster := t.roster, flags := t.flags } ∧
      (let entry := fun clash => (⟨h.serial, claimOf h, h.head, clash, s.now, false, rep⟩ : RosterEntry)
      let own := h.serial = s.cfg.serial
      let listed := ∃ e ∈ s.roster.unplaced, e.serial = h.serial
      let slotTaken := fun r : Rank => s.rank.state = .ranked r ∨
        ∃ e, s.roster.slots[r] = some e ∧ e.serial ≠ h.serial
      let toList := own ∨ claimOf h = none ∨ ∃ r, claimOf h = some r ∧ slotTaken r
      let clash := if own ∨ claimOf h ≠ none then true else false
      (∀ r, ¬ own → claimOf h = some r → ¬ slotTaken r →
        t.roster.slots[r] = some (entry false) ∧ t.flags = s.flags ∧
        t.roster.unplaced = s.roster.unplaced.filter (fun e => e.serial != h.serial) ∧
        ∀ x : Rank, x ≠ r → t.roster.slots[x] = s.roster.slots[x].filter fun e => e.serial != h.serial) ∧
      (toList → listed → t.roster.slots = s.roster.slots ∧ t.flags = s.flags ∧
        t.roster.unplaced = s.roster.unplaced.map fun e => if e.serial = h.serial then entry clash else e) ∧
      (toList → ¬ listed → s.roster.unplaced.length < 4 → t.flags = s.flags ∧
        t.roster.unplaced = s.roster.unplaced ++ [entry clash] ∧
        ∀ x : Rank, t.roster.slots[x] = s.roster.slots[x].filter fun e => e.serial != h.serial) ∧
      (toList → ¬ listed → 4 ≤ s.roster.unplaced.length →
        t.roster = s.roster ∧ t.flags = { s.flags with rosterFull := true }))

/-- R157, R172, R179, R181, R186 to R190, R192, R193: on the head, what a STATUS from a ranked peer does to the list. The first
STATUS of a station raises STATION JOINED, clears its UNIT SILENT, makes an ACTIVE entry for each circuit-keyed fault it
reports, turns each standing or CLEARED entry that it reports ACTIVE, and clears the others. One that is not taken changes
no entry and sets the unlisted deadline. A later one
is compared with the report before it, circuit by circuit and, for NO SUPPLY, function by function: what is new is
confirmed, what is gone is cleared, what stays is a change of detail, and a loss that became SHADOWED is cleared and
re-attributed (DEDUCED, log entry 24); one that repeats the last report changes no entry's state and raises no event. A
move between slots raises RANK CHANGED alone; a claim to a slot that another serial holds begins a rank clash; and every
extent is recomputed. -/
def Obligations.StatusReachesFaultList : Prop :=
  ∀ (h : RxHeader) (p : BitVec 288) (rep : Report) (r : Rank) (s : State),
    s.isHead = true → s.link.receiver.delivers = true → Report.decode p = some rep → h.serial ≠ s.cfg.serial →
    claimOf h = some r → s.rank.state ≠ .ranked r → s.learner.tracked = [] →
    let single := fun place : Option Rank =>
      (∀ x : Rank, some x ≠ place → (s.roster.slots[x].map RosterEntry.serial) ≠ some h.serial) ∧
        (∀ u ∈ s.roster.unplaced, u.serial ≠ h.serial)
    let unchanged := fun t : State =>
      t.faults.entries.map (fun x => (x.key, x.severity, x.state, x.acked, x.occurrences, x.first)) =
        s.faults.entries.map (fun x => (x.key, x.severity, x.state, x.acked, x.occurrences, x.first))
    (∃ t, exec (.statusTelegram h p) s = .next t ∧ t.circuits = s.circuits ∧ t.balance.filters = s.balance.filters ∧
      t.extents = t) ∧
    ((∀ x : Rank, s.roster.slots[x] = none) → s.roster.unplaced = [] → s.faults.entries = [] →
      ∃ t, exec (.statusTelegram h p) s = .next t ∧ t.balance = s.balance ∧
        t.roster.slots[r] = some ⟨h.serial, some r, h.head, false, s.now, false, rep⟩ ∧
        (s.events = [] → t.events.head? = some ⟨.stationJoined h.serial, s.trainSeconds⟩) ∧
        ∀ (c : Circ) (k : FaultKind), rep.circuits[c].confirmed = some k → k ≠ .noSupply →
          (t.faults.entryOf ⟨h.serial, k, some c, some rep.circuits[c].fn⟩).map
            (fun e => (e.state, e.severity, e.rankConf, e.rankCur, e.first)) =
              some (.active, severityOf k (some rep.circuits[c].fn), some r, some r, s.trainSeconds)) ∧
    (single none → s.roster.slots[r] = none → s.listLaw = true → s.faults.entries.length ≤ 16 →
      ∃ t, exec (.statusTelegram h p) s = .next t ∧
        (let es := s.faults.entries
        let silent := stationKey h.serial .unitSilent
        let reports := fun k : Key =>
          (∃ (c : Circ) (x : FaultKind), rep.circuits[c].confirmed = some x ∧ x ≠ .noSupply ∧
            k = ⟨h.serial, x, some c, some rep.circuits[c].fn⟩) ∨
          (∃ c : Circ, rep.circuits[c].confirmed = some .noSupply ∧ rep.circuits[c].attribution ≠ some .shadowed ∧
            k = ⟨h.serial, .noSupply, none, some rep.circuits[c].fn⟩)
        (∀ x, s.faults.entryOf silent = some x → x.state = .active →
          (x.acked = true → t.faults.entryOf silent = none) ∧
          (x.acked = false → t.faults.entryOf silent = some { x with
            state := .cleared, rankCur := some r, extent := 0 })) ∧
        (∀ x ∈ es, x.key.serial = h.serial → x.key.kind ≠ .unitSilent → x.key.kind ≠ .rankClash →
          (x.state ≠ .cleared → reports x.key → ∃ y, t.faults.entryOf x.key = some y ∧ y.state = .active ∧
            y.acked = x.acked ∧ y.occurrences = x.occurrences ∧ y.rankConf = x.rankConf ∧ y.rankCur = some r) ∧
          (x.state = .cleared → reports x.key → ∃ y, t.faults.entryOf x.key = some y ∧ y.state = .active ∧
            y.acked = false ∧ y.occurrences = min 255 (x.occurrences + 1) ∧ y.rankConf = some r ∧ y.rankCur = some r) ∧
          (x.state ≠ .cleared → ¬ reports x.key → (x.acked = true → t.faults.entryOf x.key = none) ∧
            (x.acked = false → t.faults.entryOf x.key = some { x with
              state := .cleared, rankCur := some r, extent := 0 })) ∧
          (x.state = .cleared → ¬ reports x.key → t.faults.entryOf x.key = some { x with
            rankCur := some r, extent := 0 })) ∧
        (s.events = [] → (∀ k, reports k → ∃ x ∈ es, x.key = k ∧ x.state ≠ .cleared) →
          (∀ x ∈ es, x.key.serial = h.serial → x.state ≠ .cleared → reports x.key) →
          t.events = [⟨.stationJoined h.serial, s.trainSeconds⟩]))) ∧
    (∀ o, s.roster.slots[r] = some o → o.serial ≠ h.serial → 4 ≤ s.roster.unplaced.length →
      (∀ u ∈ s.roster.unplaced, u.serial ≠ h.serial) → ∃ t, exec (.statusTelegram h p) s = .next t ∧
        t = { s with link := t.link, flags := t.flags, balance := t.balance, faults := t.faults, warn := t.warn } ∧
        t.flags = { s.flags with rosterFull := true } ∧
        t.balance = { s.balance with unlistedAt := some (s.now + 1500) } ∧ t.faults.overflow = s.faults.overflow ∧
        t.faults.entries.map (fun x => { x with extent := 0 }) =
          s.faults.entries.map fun x => { x with extent := 0 }) ∧
    (∀ e, s.roster.slots[r] = some e → e.serial = h.serial → single (some r) →
      (e.report = rep → ∃ t, exec (.statusTelegram h p) s = .next t ∧ t.events = s.events ∧ t.flags = s.flags ∧
        unchanged t) ∧
      (s.listLaw = true → s.faults.entries.length ≤ 16 → ∃ t, exec (.statusTelegram h p) s = .next t ∧
        (let keyOf := fun (x : Report) (c : Circ) => (x.circuits[c].confirmed.filter fun k => k ≠ .noSupply).map
          fun k => (⟨h.serial, k, some c, some x.circuits[c].fn⟩ : Key)
        let details := fun (k : Key) (c : Circ) =>
          (⟨if k.kind = .lampPartial then rep.circuits[c].m else 0, none, none, 0, none⟩ : Details)
        (∀ c k, keyOf e.report c = some k → keyOf rep c ≠ some k →
          ((t.faults.entryOf k).all fun x => x.state == .cleared) = true ∧
          (∀ x, s.faults.entryOf k = some x → x.state = .active → x.acked = true → t.faults.entryOf k = none)) ∧
        (∀ c k, keyOf rep c = some k → keyOf e.report c ≠ some k →
          (s.faults.entryOf k = none → (t.faults.entryOf k).map
            (fun x => (x.state, x.acked, x.occurrences, x.first, x.rankConf, x.rankCur, x.details)) =
              some (.active, false, 1, s.trainSeconds, some r, some r, details k c)) ∧
          (∀ x, s.faults.entryOf k = some x → x.state = .cleared → t.faults.entryOf k = some { x with
            state := .active, acked := false, occurrences := min 255 (x.occurrences + 1), rankConf := some r
            rankCur := some r, details := details k c, extent := 0 }) ∧
          (∀ x, s.faults.entryOf k = some x → x.state ≠ .cleared → t.faults.entryOf k = some { x with
            state := .active, rankCur := some r, details := details k c, extent := 0 })) ∧
        (∀ c k, keyOf e.report c = some k → keyOf rep c = some k → ∀ x, s.faults.entryOf k = some x →
          x.state ≠ .cleared → t.faults.entryOf k = some { x with
            rankCur := some r, extent := 0
            details := if k.kind = .lampPartial then { x.details with m := rep.circuits[c].m } else x.details }) ∧
        ∀ f : LampFn,
          let key : Key := ⟨h.serial, .noSupply, none, some f⟩
          let lost := fun (x : Report) (c : Circ) => x.circuits[c].fn = f ∧ x.circuits[c].confirmed = some .noSupply
          let open_ := fun (x : Report) (c : Circ) => lost x c ∧ x.circuits[c].attribution ≠ some .shadowed
          let lead := fun (x : Report) (c : Circ) => open_ x c ∧ ∀ d : Circ, d < c → ¬ open_ x d
          let shown := fun (x : Entry) (c : Circ) => x.details.attribution = rep.circuits[c].attribution ∧
            x.details.front = rep.circuits[c].front ∧
            ∀ d : Circ, (x.details.mask.getLsbD d.val = true ↔ lost rep d)
          (∀ c, lead rep c → (∀ d, ¬ open_ e.report d) →
            (s.faults.entryOf key = none → ∃ x, t.faults.entryOf key = some x ∧ x.state = .active ∧
              x.occurrences = 1 ∧ x.rankConf = some r ∧ x.rankCur = some r ∧ shown x c) ∧
            (∀ y, s.faults.entryOf key = some y → y.state = .cleared → ∃ x, t.faults.entryOf key = some x ∧
              x.state = .active ∧ x.acked = false ∧ x.occurrences = min 255 (y.occurrences + 1) ∧ shown x c)) ∧
          (∀ c d y, lead rep c → open_ e.report d → s.faults.entryOf key = some y → y.state = .active →
            ∃ x, t.faults.entryOf key = some x ∧ x.state = .active ∧ x.acked = y.acked ∧
              x.occurrences = y.occurrences ∧ shown x c) ∧
          (∀ d, (∀ c, ¬ lost rep c) → open_ e.report d →
            ((t.faults.entryOf key).all fun x => x.state == .cleared) = true) ∧
          (∀ c d y, lost rep c → (∀ c, ¬ open_ rep c) → open_ e.report d → s.faults.entryOf key = some y →
            y.state = .active → y.acked = false → ∃ x, t.faults.entryOf key = some x ∧ x.state = .cleared ∧
              x.details.attribution = some .shadowed ∧ x.details.front = none) ∧
          ((∀ c, ¬ open_ rep c) → (∀ c, ¬ open_ e.report c) →
            (t.faults.entryOf key).map (fun x => (x.state, x.acked, x.occurrences, x.details)) =
              (s.faults.entryOf key).map (fun x => (x.state, x.acked, x.occurrences, x.details)))))) ∧
    (∀ q e, q ≠ r → s.roster.slots[q] = some e → e.serial = h.serial → e.report = rep → s.roster.slots[r] = none →
      single (some q) → s.events = [] → ∃ t, exec (.statusTelegram h p) s = .next t ∧ unchanged t ∧
        t.events = [⟨.rankChanged h.serial, s.trainSeconds⟩] ∧
        ∀ x ∈ t.faults.entries, x.key.serial = h.serial → x.rankCur = some r) ∧
    (∀ o, s.roster.slots[r] = some o → o.serial ≠ h.serial → s.roster.unplaced.length < 4 → single none →
      s.faults.entryOf (stationKey h.serial .rankClash) = none → s.faults.entries.length < 16 →
      ∃ t, exec (.statusTelegram h p) s = .next t ∧ (t.roster.unplaced.getLast?.map RosterEntry.clash) = some true ∧
        (t.faults.entryOf (stationKey h.serial .rankClash)).map
          (fun x => (x.state, x.severity, x.occurrences, x.rankConf, x.rankCur)) =
            some (.active, .major, 1, some r, none))

/-- R178, R179, R181 to R183, R193: what a confirmation and a clear of a key do to the list: a new entry appended, room
made by the oldest CLEARED entry, or the key dropped; a reactivation; an ACTIVE or ORPHANED entry confirmed again; a
clear, with the removal of an acknowledged entry; and the extent of every entry. -/
def Obligations.ListActsOnKeys : Prop :=
  ∀ (k : Key) (d : Details) (claim : Option Rank) (s : State), s.isHead = true → s.events.length < 16 →
    let es := s.faults.entries
    let ranks : Option Rank × Option Rank :=
      if k.kind = .rankClash then (claim, none)
      else if k.serial = s.cfg.serial then (some 0, some 0)
      else if k.kind = .unitSilent then (claim, none)
      else (s.roster.slotOf k.serial, s.roster.slotOf k.serial)
    let made : Entry :=
      { key := k, severity := severityOf k.kind k.fn, state := .active, acked := false, occurrences := 1
        first := s.trainSeconds, rankConf := ranks.1, rankCur := ranks.2, details := d, extent := 0 }
    let told := fun (es : List Entry) (b : EventBody) =>
      { s with faults := { s.faults with entries := es }, events := s.events ++ [⟨b, s.trainSeconds⟩] }
    ((∀ e ∈ es, e.key ≠ k) →
      (es.length < 32 → s.confirm k d claim = told (es ++ [made]) (.faultConfirmed es.length k.serial)) ∧
      (∀ pre x post, 32 ≤ es.length → es = pre ++ x :: post → x.state = .cleared → (∀ y ∈ pre, y.state ≠ .cleared) →
        s.confirm k d claim =
          told (pre ++ post ++ [made]) (.faultConfirmed (pre.length + post.length) k.serial)) ∧
      (32 ≤ es.length → (∀ x ∈ es, x.state ≠ .cleared) → s.confirm k d claim =
        { s with
          faults := { s.faults with overflow := min 255 (s.faults.overflow + 1) }
          flags := { s.flags with listOverflow := true } }) ∧
      s.clear k = s) ∧
    (∀ pre e post, es = pre ++ e :: post → e.key = k → (∀ x ∈ pre ++ post, x.key ≠ k) →
      (e.state = .active → s.confirm k d claim =
        { s with faults := { s.faults with entries := pre ++ { e with details := d } :: post } }) ∧
      (e.state = .orphaned → s.confirm k d claim =
        { s with faults := { s.faults with entries := pre ++ { e with state := .active, details := d } :: post } }) ∧
      (e.state = .cleared → s.confirm k d claim = told
        (pre ++ { e with
          state := .active, acked := false, occurrences := min 255 (e.occurrences + 1), rankConf := ranks.1
          rankCur := ranks.2, details := d } :: post)
        (.faultConfirmed pre.length k.serial)) ∧
      (e.state = .cleared → s.clear k = s) ∧
      (e.state ≠ .cleared → e.acked = true → s.clear k = told (pre ++ post) (.faultCleared pre.length k.serial)) ∧
      (e.state ≠ .cleared → e.acked = false → s.clear k =
        told (pre ++ { e with state := .cleared, extent := 0 } :: post) (.faultCleared pre.length k.serial))) ∧
    (∃ n : Entry → Nat, s.extents = { s with faults := { s.faults with
        entries := es.map fun e => { e with extent := n e } } } ∧
      ∀ e ∈ es,
        let anchors := fun (x : Entry) (f : LampFn) (a : Rank) => x.key.kind = .noSupply ∧ x.key.fn = some f ∧
          x.state = .active ∧ x.rankCur = some a ∧
          (x.details.attribution = some .coupling ∨ x.details.attribution = some .unattributed ∨
            x.details.attribution = some .tractor)
        let lost := fun (q : CircuitReport) (f : LampFn) => q.fn = f ∧ q.confirmed = some .noSupply
        let shadowed := fun (x : Rank) (f : LampFn) => ∃ u, s.roster.slots[x] = some u ∧
          (∃ c : Circ, lost u.report.circuits[c] f) ∧
          ∀ c : Circ, lost u.report.circuits[c] f → u.report.circuits[c].attribution = some .shadowed
        ((∀ f a, ¬ anchors e f a) → n e = 0) ∧
        (∀ f a, anchors e f a → ∃ behind : List Rank, behind.Nodup ∧ n e = min 6 behind.length ∧
          ∀ x, x ∈ behind ↔ a < x ∧ shadowed x f ∧
            ∀ b, a < b → b < x → ∀ y ∈ es, ¬ anchors y f b))

/-- R152, R154, R191, R208: an expired entry leaves its place; on the head the loss of a ranked station raises STATION
LOST, makes or reactivates UNIT SILENT or finds it ACTIVE, takes the current rank from the station's entries, and turns
each of its other ACTIVE entries ORPHANED, unacknowledged, with extent 0 and a FAULT ORPHANED in index order; its CLEARED
entries stay CLEARED. A tracked station of either place ends LOST. -/
def Obligations.ExpiryRemovesEntry : Prop :=
  ∀ (e : RosterEntry) (s : State), e.heard + 1500 ≤ s.now →
    (∀ r : Rank, s.roster.slots[r] = some e →
      ∃ t, exec (.rosterExpiry (.slot r)) s = .next t ∧
        t = { s with
          roster := t.roster, faults := t.faults, warn := t.warn, events := t.events, flags := t.flags
          learner := t.learner } ∧
        t.roster.slots[r] = none ∧ t.roster.unplaced = s.roster.unplaced ∧
        (∀ x : Rank, x ≠ r → t.roster.slots[x] = s.roster.slots[x]) ∧
        (s.isHead = false → t.faults = s.faults ∧ t.warn = s.warn ∧ t.events = s.events ∧ t.flags = s.flags ∧
          t.learner = s.learner) ∧
        (s.isHead = true → s.events = [] → t.events.head? = some ⟨.stationLost e.serial, s.trainSeconds⟩) ∧
        (s.isHead = true → s.faults.entryOf (stationKey e.serial .unitSilent) = none → s.faults.entries.length < 32 →
          e.serial ≠ s.cfg.serial →
          (t.faults.entryOf (stationKey e.serial .unitSilent)).map
            (fun x => (x.state, x.severity, x.rankConf, x.rankCur)) = some (.active, .major, some r, none)) ∧
        (∀ x, s.isHead = true → e.serial ≠ s.cfg.serial →
          s.faults.entryOf (stationKey e.serial .unitSilent) = some x →
          t.faults.entryOf (stationKey e.serial .unitSilent) = some (if x.state = .cleared then
            { x with
              state := .active, acked := false, occurrences := min 255 (x.occurrences + 1), rankConf := some r
              rankCur := none, details := Details.empty, extent := 0 }
            else { x with state := .active, rankCur := none, details := Details.empty, extent := 0 })) ∧
        (s.isHead = true → s.listLaw = true →
          let es := s.faults.entries
          let mine := fun x : Entry => x.key.serial = e.serial ∧ x.key.kind ≠ .unitSilent
          let orphaned := es.zipIdx.filter fun x => x.1.key.serial == e.serial && x.1.state == .active
          (∀ x ∈ es, mine x → x.state = .active → t.faults.entryOf x.key = some { x with
            state := .orphaned, acked := false, rankCur := none, extent := 0 }) ∧
          (∀ x ∈ es, mine x → x.state = .orphaned →
            t.faults.entryOf x.key = some { x with rankCur := none, extent := 0 }) ∧
          (∀ x ∈ es, mine x → x.state = .cleared → es.length < 32 →
            t.faults.entryOf x.key = some { x with rankCur := none, extent := 0 }) ∧
          (∀ x ∈ t.faults.entries, mine x → x.state ≠ .active ∧ x.rankCur = none ∧ x.extent = 0) ∧
          (s.events = [] → es.length < 32 → (∀ x ∈ es, x.key.serial = e.serial → x.key.kind ≠ .unitSilent) →
            orphaned.length ≤ 14 → (∀ u ∈ s.learner.tracked, u.serial ≠ e.serial) → t.events =
              ⟨.stationLost e.serial, s.trainSeconds⟩ :: ⟨.faultConfirmed es.length e.serial, s.trainSeconds⟩ ::
                orphaned.map fun x => ⟨.faultOrphaned x.2 e.serial, s.trainSeconds⟩)) ∧
        (∀ u ∈ s.learner.tracked, s.isHead = true → u.serial = e.serial →
          t.learner = { s.learner with tracked := s.learner.tracked.filter fun x => x.serial != e.serial } ∧
          (s.events = [] → s.faults.entries = [] → t.events =
            [⟨.stationLost e.serial, s.trainSeconds⟩, ⟨.faultConfirmed 0 e.serial, s.trainSeconds⟩,
              ⟨.learnDone e.serial .lost, s.trainSeconds⟩]))) ∧
    (∀ i : Fin 4, s.roster.unplaced[i.val]? = some e →
      ∃ t, exec (.rosterExpiry (.unplaced i)) s = .next t ∧ t.roster.slots = s.roster.slots ∧
        t.roster.unplaced = s.roster.unplaced.eraseIdx i.val ∧
        (s.isHead = false → t = { s with roster := t.roster }) ∧
        (s.isHead = true → e.clash = true →
          ((t.faults.entryOf (stationKey e.serial .rankClash)).all fun x => x.state == .cleared) = true) ∧
        (∀ u ∈ s.learner.tracked, s.isHead = true → u.serial = e.serial →
          t.learner = { s.learner with tracked := s.learner.tracked.filter fun x => x.serial != e.serial } ∧
          (e.clash = false → s.events = [] →
            t.events = [⟨.learnDone e.serial .lost, s.trainSeconds⟩])))

/-! ## The transmitter and its guards -/

/-- R116, R117, R126 to R129, R132, R209, R211: after a quiet gap, measured at the send rate, an attempt sends the
telegram of the lowest kind code with the header of this moment, at the rate it began with; a telegram queued during the
attempt marks a replaced slot of its kind; when the attempt completes its slot is emptied, unless the content was
replaced meanwhile, and a waiting QUERY or READING is queued. Model's choice (log entry 6): the counts of the line that
each row leaves. -/
def Obligations.AttemptAndCompletion : Prop :=
  ∀ (gap : Nat) (k : TKind) (v : Nat) (s : State), s.link.slots.lowest = some (k, v) →
    let ready := fun r : Rate => (s.link.presence = .alone r ∨ s.link.presence = .joined r) ∧
      30 * 1000000000 ≤ gap * r.bps ∧ s.link.stuckHold = false ∧ (s.link.tx = .waitGap ∨ s.link.tx = .yielded)
    let chars := telegramChars k s.ownHeader (bytesLE k.payloadLength v)
    let counted := { s.link with gapNs := 0, driverNs := 0, lineNs := 0 }
    let slots := s.link.slots
    (∀ r, ready r → exec (.sendAttempt gap) s =
      .next { s with link := { counted with tx := .sending ⟨k, r, chars, false⟩ } }) ∧
    ((∀ r, ¬ ready r) → exec (.sendAttempt gap) s = .next { s with link := { counted with gapNs := gap } }) ∧
    (∀ c, slots.command = some c → k = .command ∧ v = c.toNat) ∧
    (∀ c, slots.command = none → slots.learn = some c → k = .learn ∧ v = c.toNat) ∧
    (∀ c, slots.command = none → slots.learn = none → slots.query = some c → k = .query ∧ v = c.toNat) ∧
    (∀ c, slots.command = none → slots.learn = none → slots.query = none → slots.reading = some c →
      k = .reading ∧ v = c.toNat) ∧
    (∀ c, slots.command = none → slots.learn = none → slots.query = none → slots.reading = none →
      slots.status = some c → k = .status ∧ v = c.toNat) ∧
    (∀ a, s.link.tx = .sending a →
      (a.replaced = true → exec .completion s = .next { s with link := { counted with tx := .waitGap } }) ∧
      (a.replaced = false →
        let empties := fun rest : Slots => exec .completion s = .next { s with link := { counted with
          slots := rest, tx := if rest = ⟨none, none, none, none, none⟩ then .idle else .waitGap } }
        (a.kind = .command → empties { slots with command := none }) ∧
        (a.kind = .learn → empties { slots with learn := none }) ∧
        (a.kind = .query → s.query.waiting = none → empties { slots with query := none }) ∧
        (a.kind = .reading → s.spot.waiting = none → empties { slots with reading := none }) ∧
        (a.kind = .status → empties { slots with status := none }) ∧
        (∀ q, a.kind = .query → s.query.waiting = some q → validSerial s.cfg.serial = true → exec .completion s =
          .next { s with
            link := { counted with slots := { slots with query := some q }, tx := .waitGap }
            query := { s.query with waiting := none } }) ∧
        (∀ q, a.kind = .reading → s.spot.waiting = some q → validSerial s.cfg.serial = true → exec .completion s =
          .next { s with
            link := { counted with slots := { slots with reading := some q }, tx := .waitGap }
            spot := { s.spot with waiting := none } })) ∧
      (s.isSilent = false → s.tell.statusAt ≤ s.now → ∃ t, exec .statusTimer s = .next t ∧
        t.link.slots.status = some s.report.encode ∧
        t.link.tx = .sending (if a.kind = .status then { a with replaced := true } else a)) ∧
      (s.isSilent = false → s.isHead = true → s.source.resendAt ≤ s.now → ∃ t, exec .reSendTimer s = .next t ∧
        t.link.slots.command = some s.commandContent.encode ∧
        t.link.tx = .sending (if a.kind = .command then { a with replaced := true } else a)) ∧
      (∀ (h : RxHeader) (p : BitVec 24) (r x : Rate), s.link.receiver = .verify r true → s.link.presence = .joined x →
        r.bps < x.bps → ∃ t, exec (.queryTelegram h p) s = .next t ∧ t.link.presence = .joined r ∧
          t.link.tx = .sending a))

/-- R126, R130, R135: during an attempt a recessive bit that reads back dominant yields, and a dominant bit that reads
back recessive is a counted drive fault; a line that reads back as sent does neither. The bits are sent at the rate the
attempt began with. Model's choice for the rows and the counts they leave: log entries 2 and 6. -/
def Obligations.ReadBackYieldsOrFaults : Prop :=
  ∀ (a : Attempt) (sent rest : List Bool) (s : State), s.link.tx = .sending a →
    let released := { s.link with tx := .yielded, gapNs := 0, driverNs := 0, lineNs := 0 }
    s.link.tx.driven = some (a.rate, lineBits a.chars) ∧
    (lineBits a.chars = sent ++ true :: rest → exec (.yieldLine (sent ++ [false])) s =
      .next { s with link := released }) ∧
    (lineBits a.chars = sent ++ false :: rest → exec (.driveFault (sent ++ [true])) s =
      .next { s with link := { released with driveFaults := min 65535 (s.link.driveFaults + 1) } }) ∧
    (lineBits a.chars = sent ++ rest → exec (.yieldLine sent) s = .next s ∧ exec (.driveFault sent) s = .next s)

/-- R116, R126, R133 to R135: twelve dominant bit times cut the driver off, a third time within 60000 ms for good; 1000
ms of recessive drive end CUT OFF; more than 24 bit times of dominant line hold the transmitter, and 10 ms recessive end
that. Bit times are those of the send rate in force, or of the strap rate before there is one (for the driver guard
DEDUCED, log entry 6). Model's choice (log entries 2 and 6): a shorter stretch is only kept in its count, or leaves the
state, and the counts that a row leaves. -/
def Obligations.DriverGuardAndLineMonitor : Prop :=
  ∀ (n : Nat) (r : Rate) (s : State),
    s.link.presence = .alone r ∨ s.link.presence = .joined r ∨ s.link.presence = .listening ∧ s.cfg.strapRate = r →
    let counted := { s.link with gapNs := 0, driverNs := 0, lineNs := 0 }
    (s.link.tx ≠ .cutOff → s.link.tx ≠ .latchedOff → 12 * 1000000000 ≤ n * r.bps →
      ∃ t, exec (.cutOff n) s = .next t ∧ t = { s with link := t.link, flags := { s.flags with txCutoff := true } } ∧
        (s.link.cutRecord.length < 2 → t.link = { counted with
          tx := .cutOff, cutRecord := s.link.cutRecord ++ [s.now] }) ∧
        (∀ x y, s.link.cutRecord = [x, y] → s.now ≤ x + 60000 → t.link = { counted with
          tx := .latchedOff, slots := ⟨none, none, none, none, none⟩ }) ∧
        (∀ x y, s.link.cutRecord = [x, y] → x + 60000 < s.now → t.link = { counted with
          tx := .cutOff, cutRecord := [y, s.now] })) ∧
    (s.link.tx ≠ .cutOff → s.link.tx ≠ .latchedOff → n * r.bps < 12 * 1000000000 →
      exec (.cutOff n) s = .next { s with link := { s.link with gapNs := 0, driverNs := n, lineNs := 0 } }) ∧
    (s.link.tx = .cutOff → 1000 ≤ n → exec (.cutOffRecovery n) s = .next { s with link := { s.link with
      tx := if s.link.slots = ⟨none, none, none, none, none⟩ then .idle else .waitGap } }) ∧
    (n < 1000 ∨ s.link.tx ≠ .cutOff → exec (.cutOffRecovery n) s = .next s) ∧
    ((∀ a, s.link.tx ≠ .sending a) → 24 * 1000000000 < n * r.bps → exec (.lineStuck n) s = .next { s with
      link := { counted with stuckHold := true, lineNs := n }, flags := { s.flags with lineStuck := true } }) ∧
    ((∀ a, s.link.tx ≠ .sending a) → n * r.bps ≤ 24 * 1000000000 →
      exec (.lineStuck n) s = .next { s with link := { counted with lineNs := n } }) ∧
    (10 ≤ n → exec (.lineStuckHoldEnd n) s =
      .next { s with link := { counted with stuckHold := false, gapNs := n * 1000000 } }) ∧
    (n < 10 → exec (.lineStuckHoldEnd n) s = .next { s with link := { counted with gapNs := n * 1000000 } })

/-! ## The rank line -/

/-- R140: at each multiple of 100 ms a RANKED station begins a burst of rank + 1 pulses; its edges follow 1 ms apart,
rising first, and the last of the 2k ends it. Model's choice (log entry 2): before its moment a row leaves the state. -/
def Obligations.RearBurstsCountTheRank : Prop :=
  ∀ s : State,
    (∀ r, s.rear.next ≤ s.now → s.rank.state = .ranked r → exec .rearBurstStart s =
      .next { s with rear := { s.rear with burst := some ⟨s.rear.next, r.val + 1, 0⟩, next := s.rear.next + 100 } }) ∧
    (s.rear.next ≤ s.now → (∀ r, s.rank.state ≠ .ranked r) → exec .rearBurstStart s =
      .next { s with rear := { s.rear with next := s.rear.next + 100 } }) ∧
    (s.now < s.rear.next → exec .rearBurstStart s = .next s) ∧
    (∀ b, s.rear.burst = some b → b.start + b.edges ≤ s.now →
      (b.edges + 1 < 2 * b.pulses → exec .rearPulse s = .next { s with rear := { s.rear with
        level := b.edges % 2 == 0, burst := some { b with edges := b.edges + 1 } } }) ∧
      (2 * b.pulses ≤ b.edges + 1 → exec .rearPulse s =
        .next { s with rear := { s.rear with level := b.edges % 2 == 0, burst := none } })) ∧
    (∀ b, s.rear.burst = some b → s.now < b.start + b.edges → exec .rearPulse s = .next s)

/-- R141 to R145, R153: how a unit hears FRONT: stretches by length, the end of a burst, the run of three that decides,
and the silence deadline. A head ignores FRONT. The clock at a stretch's end is the model's `lowFrom` (log entry 22). -/
def Obligations.FrontDecidesRank : Prop :=
  ∀ (us : Nat) (s : State),
    (s.isHead = true → exec (.frontHighStretch us) s = .next s) ∧
    (s.isHead = false → ∃ t, exec (.frontHighStretch us) s = .next t ∧
      t = { s with rank := { s.rank with openBurst := t.rank.openBurst } } ∧
      (us < 500 → t.rank.openBurst = s.rank.openBurst) ∧
      (500 ≤ us → us ≤ 2000 → s.rank.openBurst = none → t.rank.openBurst = some ⟨1, false, s.ticks⟩) ∧
      (∀ b, 500 ≤ us → us ≤ 2000 → s.rank.openBurst = some b →
        t.rank.openBurst = some ⟨min 8 (b.count + 1), b.malformed, s.ticks⟩) ∧
      (2000 < us → s.rank.openBurst = none → t.rank.openBurst = some ⟨0, true, s.ticks⟩) ∧
      (∀ b, 2000 < us → s.rank.openBurst = some b → t.rank.openBurst = some ⟨b.count, true, s.ticks⟩)) ∧
    (∀ b, s.isHead = false → s.pins.front = false → s.rank.openBurst = some b → b.lowFrom + 40 ≤ s.ticks →
      ∃ t, exec .burstEnd s = .next t ∧
        t = { s with rank := t.rank, roster := t.roster, link := t.link, tell := t.tell } ∧
        t.rank.openBurst = none ∧ t.roster.unplaced = s.roster.unplaced ∧
        (b.malformed = true → t.rank = { s.rank with runValue := none, runLength := 0, openBurst := none }) ∧
        (b.malformed = false → t.rank.silenceAt = some (s.now + 500) ∧ t.rank.runValue = some b.count ∧
          (s.rank.runValue ≠ some b.count → t.rank.runLength = 1 ∧ t.rank.state = s.rank.state) ∧
          (s.rank.runValue = some b.count → s.rank.runLength < 2 ∨ s.rank.runLength = 3 → t.rank.state = s.rank.state ∧
            t.rank.runLength = min 3 (s.rank.runLength + 1)) ∧
          (s.rank.runValue = some b.count → s.rank.runLength = 2 → t.rank.runLength = 3 ∧
            (∀ v : Rank, v ≠ 0 → b.count = v.val → t.rank.state = .ranked v ∧
              (s.rank.state ≠ .ranked v → t.roster.slots[v] = none)) ∧
            (b.count = 8 → t.rank.state = .unranked .overflow)))) ∧
    (∀ at_, s.isHead = false → s.rank.silenceAt = some at_ → at_ ≤ s.now →
      ∃ t, exec .rankSilenceDeadline s = .next t ∧
        t = { s with
          rank := ⟨.unranked .frontSilent, none, 0, none, s.rank.openBurst⟩, link := t.link, tell := t.tell } ∧
        t.activeCauses.unranked = true)

/-! ## Learn tracker, queries, port -/

/-- R208, R210: a tracked station shown LEARNING by a STATUS has started, and one that has started and is shown so no
more ends DONE; one that has not started by its deadline ends NOT STARTED; a query that no READING answered ends TIMEOUT.
Each end raises its event. Model's choice (log entry 2): a row that is not due leaves the state. -/
def Obligations.LearnTrackerAndQueryEnd : Prop :=
  ∀ s : State, s.isHead = true → s.events.length < 16 →
    (∀ u ∈ s.learner.tracked, u.started = false → u.deadline ≤ s.now →
      exec (.learnTrackerDeadline u.serial) s = .next { s with
        learner := { s.learner with tracked := s.learner.tracked.filter fun x => x.serial != u.serial }
        events := s.events ++ [⟨.learnDone u.serial .notStarted, s.trainSeconds⟩] }) ∧
    (∀ q, s.query.outstanding = some q → q.deadline ≤ s.now →
      exec .queryDeadline s = .next { s with
        query := { s.query with outstanding := none, waiting := none, result := .timeout q }
        events := s.events ++ [⟨.spotDone q.serial q.tag true, s.trainSeconds⟩] }) ∧
    (∀ n, (∀ u ∈ s.learner.tracked, u.serial = n → u.started = true) → exec (.learnTrackerDeadline n) s = .next s) ∧
    (∀ (h : RxHeader) (p : BitVec 288) (rep : Report) (r : Rank) (e : RosterEntry),
      s.link.receiver.delivers = true → Report.decode p = some rep → h.serial ≠ s.cfg.serial → claimOf h = some r →
      s.rank.state ≠ .ranked r → s.roster.slots[r] = some e → e.serial = h.serial →
      ∃ t, exec (.statusTelegram h p) s = .next t ∧
        (let shown := ∃ c : Circ, s.learner.mask.getLsbD c.val = true ∧
          (rep.circuits[c].kind = .incandescent ∨ rep.circuits[c].kind = .led) ∧ rep.circuits[c].learn = .learning
        let gone := { s.learner with tracked := s.learner.tracked.filter fun x => x.serial != h.serial }
        let start := fun x : Tracked => if x.serial = h.serial then { x with started := true } else x
        let starts := { s.learner with tracked := s.learner.tracked.map start }
        ((∀ u ∈ s.learner.tracked, u.serial ≠ h.serial) → t.learner = s.learner) ∧
        (∀ u ∈ s.learner.tracked, u.serial = h.serial → (∀ x ∈ s.learner.tracked, x.serial = h.serial → x = u) →
          ((u.started = true ↔ shown) → t.learner = s.learner) ∧
          (u.started = false → shown → t.learner = starts) ∧
          (u.started = true → ¬ shown → t.learner = gone ∧
            (s.events = [] → s.faults.entries = [] → e.report = rep →
              (∀ x : Rank, x ≠ r → (s.roster.slots[x].map RosterEntry.serial) ≠ some h.serial) →
              (∀ x ∈ s.roster.unplaced, x.serial ≠ h.serial) →
              t.events = [⟨.learnDone h.serial .done, s.trainSeconds⟩])))))

/-- R198, R218: what a frame shifts out, bit 0 of each byte first and 00h after the last byte, and what its release
leaves when the frame was cut short, its code unknown, or the slot's request still in progress. That 00h follows the
single byte of NOT READY and NO REQUEST too is DEDUCED (log entry 18). -/
def Obligations.FramesAndRefusedFrames : Prop :=
  ∀ (code : Byte) (s : State),
    (s.port.frame = none →
      (∀ b, s.port.slot = .finished b → exec .frameStart s =
        .next { s with port := ⟨.finished b, some .reply, b⟩ }) ∧
      (s.port.slot = .inProgress → exec .frameStart s =
        .next { s with port := ⟨.inProgress, some .notReady, [0x10#8]⟩ }) ∧
      (s.port.slot = .none → exec .frameStart s = .next { s with port := ⟨.none, some .noRequest, [0x11#8]⟩ })) ∧
    (∀ f, s.port.frame = some f → ∀ n : Nat,
      (∀ b, s.port.out[n / 8]? = some b → s.port.pdo n = some (b.getLsbD (n % 8))) ∧
      (s.port.out.length ≤ n / 8 → s.port.pdo n = some false)) ∧
    (s.port.frame = some .reply ∨ s.port.frame = some .noRequest →
      exec .badFrame s = .next { s with port := ⟨.finished [0x12#8, 0#8], none, s.port.out⟩ } ∧
      exec (.unknown code) s = .next { s with port := ⟨.finished [0x13#8, 0#8], none, s.port.out⟩ }) ∧
    (s.port.frame = some .notReady → ∀ i ∈ [Instr.badFrame, .unknown code, .status, .event, .ackAll, .spotResult,
        .tallies, .restart, .entry code, .clearFlags code, .roster code, .localRead code, .spot code code],
      exec i s = .next { s with port := { s.port with frame := none } })

/-- R199, R203 to R205, R210: the requests that read the station leave it alone and put their data in the reply slot;
the head's requests get NOT HEAD on a unit; a field out of range gets BAD REQUEST. -/
def Obligations.ReadingRequestsReply : Prop :=
  ∀ (i : Byte) (s : State), s.port.frame = some .reply ∨ s.port.frame = some .noRequest →
    let replied := fun (outcome : Byte) (data : List Byte) => (Host.Outcome.next { s with
      port := ⟨.finished (outcome :: BitVec.ofNat 8 data.length :: data), none, s.port.out⟩ } :
        Host.Outcome State Fault Refusal)
    exec .status s = replied 0x01#8 s.statusReply ∧
    exec .tallies s = replied 0x01#8 s.talliesReply ∧
    (∀ c : Circ, exec (.localRead (BitVec.ofNat 8 c.val)) s = replied 0x01#8 (s.localReply c)) ∧
    (∀ n : Nat, n < 12 → exec (.roster (BitVec.ofNat 8 n)) s = replied 0x01#8 (s.rosterReply n)) ∧
    (7 < i.toNat → exec (.localRead i) s = replied 0x21#8 []) ∧
    (11 < i.toNat → exec (.roster i) s = replied 0x21#8 []) ∧
    (s.isHead = true → exec .spotResult s = replied 0x01#8 s.query.result.bytes ∧
      (∀ e, s.faults.entries[i.toNat]? = some e → exec (.entry i) s = replied 0x01#8 (i :: e.bytes)) ∧
      (s.faults.entries.length ≤ i.toNat → exec (.entry i) s = replied 0x32#8 [])) ∧
    (s.isHead = false → ∀ r ∈ [Instr.event, .entry i, .ack i 0#24, .ackAll, .clearFlags i, .learn i i, .spot i i,
      .spotResult], exec r s = replied 0x20#8 []) ∧
    s.statusReply.length = 23 ∧ s.talliesReply.length = 34 ∧ s.query.result.bytes.length = 18 ∧
    (∀ c : Circ, (s.localReply c).length = 117)

/-- R203 to R205, R210, R214, R215, R218: what stands at each offset of STATUS, LOCAL, TALLIES, ROSTER, SPOT RESULT,
an ENTRY and an event, least significant byte first, and the shared codes. A row reads (offset, size, value). What a
field shows of a value too large for it is open (log entry 23); that a none of no mask bit and no code reads 0 is
DEDUCED (log entry 29). -/
def Obligations.ReplyLayouts : Prop :=
  ∀ s : State,
    let reads := fun (bs : List Byte) (rows : List (Nat × Nat × Nat)) =>
      ∀ o n v, (o, n, v) ∈ rows → natLE ((bs.drop o).take n) = v % 256 ^ n
    let b := fun (x : Bool) (weight : Nat) => if x = true then weight else 0
    let causes := fun x : Causes =>
      b x.lowSupply 1 + b x.cranking 2 + b x.commandLost 4 + b x.headClash 8 + b x.unranked 16
    let head := fun n : Nat => if s.isHead = true then n else 0
    let g := s.flags
    ([LampFn.leftTurn, .rightTurn, .stop, .tail, .marker, .reverse, .fog, .aux].map LampFn.code = List.range 8 ∧
      [LoadKind.notFitted, .incandescent, .led, .feed].map LoadKind.code = List.range 4 ∧
      [none, some FaultKind.lampOut, some .lampPartial, some .overload, some .noSupply, some .flicker, some .stray,
        some .cadence, some .leakage, some .unitSilent, some .rankClash, some .headClash].map kindCode =
          List.range 12 ∧
      [none, some Attribution.coupling, some .shadowed, some .unattributed, some .tractor].map attributionCode =
        List.range 5 ∧
      [LearnState.unlearned, .learning, .learned].map LearnState.code = List.range 3 ∧
      [some Rate.r19200, some .r38400, some .r57600, some .r115200, none].map rateCode = List.range 5 ∧
      [Severity.minor, .major, .critical].map Severity.code = List.range 3 ∧
      [none, some Sign.sink, some .source].map signCode = List.range 3 ∧ rankCode none = 8 ∧ frontCode none = 8 ∧
      (∀ r : Rank, rankCode (some r) = r.val) ∧ ∀ n : Nat, frontCode (some n) = n) ∧
    (s.statusReply.length = 23 ∧ reads s.statusReply [
      (0, 1, b s.isHead 1 + (if s.cfg.serial = 0#24 ∨ s.cfg.serial = 0xFFFFFF#24 then 2 else 0) + b s.coasting 4),
      (1, 3, s.cfg.serial.toNat),
      (4, 1, match s.rank.state with | .acquiring => 0 | .ranked _ => 1 | .unranked _ => 2),
      (5, 1, match s.rank.state with | .ranked r => r.val | _ => 8),
      (6, 1, match s.rank.state with | .unranked .frontSilent => 1 | .unranked .overflow => 2 | _ => 0),
      (7, 1, match s.link.presence with | .listening => 0 | .alone _ => 1 | .joined _ => 2),
      (8, 1, match s.link.presence with | .listening => 4 | .alone r => r.code | .joined r => r.code),
      (9, 1, match s.link.receiver with | .hunt => 0 | .verify _ _ => 1 | .synced _ => 2),
      (10, 1, match s.link.receiver with | .hunt => 4 | .verify r _ => r.code | .synced r => r.code),
      (11, 1, match s.link.tx with
        | .idle => 0 | .waitGap => 1 | .sending _ => 2 | .yielded => 3 | .cutOff => 4 | .latchedOff => 5),
      (12, 1, causes s.activeCauses), (13, 1, causes s.cfg.coastMask), (14, 1, head s.faults.entries.length),
      (15, 1, head (match s.warn.state with | .off => 0 | .steady => 1 | .blink => 2)), (16, 1, head s.events.length),
      (17, 1, head s.faults.overflow), (18, 4, head s.trainSeconds.toNat),
      (22, 1, b g.eventOverflow 1 + b g.listOverflow 2 + b g.txCutoff 4 + b g.lineStuck 8 + b g.storeFault 16 +
        b g.configFault 32 + b g.rosterFull 64)]) ∧
    (∀ c : Circ,
      let k := s.circuits[c]
      let t := k.tracker
      let u := k.ref
      let bs := s.localReply c
      let v := k.last.bind LastRecord.verdict
      let lamp := v.bind Verdict.lamp
      let found := (v.map Verdict.findings).getD ⟨false, false, false, false⟩
      let feed := s.isHead = true ∧ k.cfg.kind = .feed ∧
        ∀ d : Circ, d < c → ¬ (s.circuits[d].cfg.kind = .feed ∧ s.circuits[d].cfg.fn = k.cfg.fn)
      let result := s.balance.results[k.cfg.fn.idx]
      let figures : BalanceFigures := (match result.map BalanceRecord.result with
        | some (.leakage _ f) => f | some (.clean f) => f | _ => ⟨0, 0, 0, 0⟩)
      let h := s.balance.filters[k.cfg.fn.idx]
      bs.length = 117 ∧
      reads bs [
        (0, 1, c.val), (1, 1, k.cfg.fn.code + 8 * k.cfg.kind.code + b k.energized 32), (2, 1, k.cfg.n),
        (3, 2, k.cfg.rating),
        (5, 2, b k.lastOn.isNone 1 + b t.prevOn.isNone 2 + b t.phaseStart.isNone 4 + b t.pbar.isNone 8 +
          b t.lastT.isNone 16 + b t.compareAt.isNone 32 + b t.silenceAt.isNone 64 + b t.lingerAt.isNone 128 +
          b u.deadline.isNone 256 + b u.epoch.isNone 512 + b s.actedEpoch.isNone 1024),
        (7, 4, k.lastOn.getD 0), (11, 2, k.glitch),
        (13, 1, (match t.activity with | .dormant => 0 | .active => 1 | .lingering => 2) + b t.locked 4 +
          8 * t.window.length),
        (14, 4, t.prevOn.getD 0), (18, 4, t.phaseStart.getD 0), (22, 2, t.window[0]?.getD 0),
        (24, 2, t.window[1]?.getD 0), (26, 2, t.window[2]?.getD 0), (28, 2, t.window[3]?.getD 0),
        (30, 2, t.pbar.getD 0), (34, 1, t.disagree + 4 * t.miss), (35, 4, t.compareAt.getD 0),
        (39, 4, t.silenceAt.getD 0), (43, 4, t.lingerAt.getD 0),
        (47, 1, match t.latestNote with | none => 0 | some n => b n.period 1 + b n.duty 2 + b n.mismatch 4),
        (48, 2, (t.latestNote.map CadenceNote.pbar).getD 0),
        (53, 1, (match k.last.map LastRecord.kind with
          | none => 0 | some .window => 1 | some .onPhase => 2 | some .missedFlash => 3) + b v.isSome 128),
        (54, 2, (k.last.map LastRecord.im).getD 0), (56, 1, match v with | none => 15 | some w => kindCode w.kind),
        (57, 1, b lamp.isSome 1 + b ((lamp.map LampStages.nominal).getD false) 2 + b found.period 4 + b found.duty 8 +
          b found.mismatch 16 + b found.heldOn 32),
        (58, 2, (lamp.map LampStages.inorm).getD 0), (60, 2, (lamp.map LampStages.r).getD 0),
        (62, 1, (lamp.map LampStages.m).getD 0 + 16 * (lamp.map LampStages.n).getD 0),
        (63, 1, attributionCode (v.bind Verdict.attribution)), (64, 1, frontCode (v.bind Verdict.front)),
        (65, 1, match v.bind Verdict.kind with | none => 3 | some x => (severityOf x (some k.cfg.fn)).code),
        (66, 1, kindCode k.filter.candidate), (67, 1, k.filter.confirm + 4 * k.filter.clear),
        (68, 1, kindCode k.filter.confirmed), (69, 1, k.filter.m.getD 15), (70, 1, k.filter.n),
        (71, 1, attributionCode k.filter.attribution), (72, 1, frontCode k.filter.front),
        (73, 1, signCode k.filter.sign), (74, 1, u.learn.code), (75, 2, u.iref.getD 0), (77, 1, u.k), (78, 4, u.sum),
        (82, 4, u.deadline.getD 0), (86, 1, (u.epoch.map BitVec.toNat).getD 0),
        (87, 1, match u.outcome with
          | .none => 0 | .done => 1 | .failedOutOfRange => 2 | .failedNotLit => 3 | .recordBad => 4
          | .recordDiscarded => 5),
        (88, 1, match u.save with | .none => 0 | .waiting => 1 | .writing => 2 | .saved => 3 | .failed => 4),
        (89, 1, (s.actedEpoch.map BitVec.toNat).getD 0), (90, 2, s.vs.getD 0)] ∧
      (∀ x, t.lastT.getD 0 = x → x < 65536 → reads bs [(32, 2, x)]) ∧
      (∀ n, t.latestNote = some n → (n.onTime < 65536 → reads bs [(50, 2, n.onTime)]) ∧
        (n.dutyPercent < 256 → reads bs [(52, 1, n.dutyPercent)])) ∧
      (t.latestNote = none → reads bs [(50, 2, 0), (52, 1, 0)]) ∧
      (s.isHead = true → reads bs [(92, 2, 0)]) ∧
      (s.isHead = false → s.cmd.headSupply < 65536 → reads bs [(92, 2, s.cmd.headSupply)]) ∧
      (¬ feed → reads bs [(94, 23, 0)]) ∧
      (feed → reads bs [
        (94, 1, match result.map BalanceRecord.result with
          | none => 0 | some (.leakage _ _) => 1 | some (.clean _) => 2 | some (.thin _) => 3),
        (95, 1, match result.map BalanceRecord.result with
          | some (.thin .feed) => 1 | some (.thin .coast) => 2 | some (.thin .unplaced) => 3
          | some (.thin .unlisted) => 4 | some (.thin .stale) => 5 | some (.thin .unjudged) => 6 | _ => 0),
        (96, 1, match result.map BalanceRecord.result with
          | some (.leakage .sink _) => 1 | some (.leakage .source _) => 2 | _ => 0),
        (97, 2, figures.ihead), (99, 4, figures.sum), (103, 4, (figures.diff % 4294967296).toNat),
        (107, 2, figures.threshold), (109, 4, (result.map BalanceRecord.formedAt).getD 0),
        (113, 1, kindCode h.candidate), (114, 1, h.confirm + 4 * h.clear), (115, 1, kindCode h.confirmed),
        (116, 1, signCode h.sign)])) ∧
    (let e := s.link.errors
    s.talliesReply.length = 34 ∧
    reads s.talliesReply [
      (0, 2, e.command), (2, 2, e.learn), (4, 2, e.query), (6, 2, e.reading), (8, 2, e.status), (10, 2, e.unkinded),
      (12, 2, s.link.driveFaults), (30, 2, s.cmd.staleTally), (32, 2, head s.query.late)] ∧
    ∀ c : Circ, reads s.talliesReply [(14 + 2 * c.val, 2, s.circuits[c].glitch)]) ∧
    (let entry := fun (bs : List Byte) (place : Nat) (e : RosterEntry) => bs.length = 47 ∧ reads bs [
      (0, 1, 2), (1, 3, e.serial.toNat), (4, 1, place), (5, 1, rankCode e.claimed),
      (6, 1, b e.head 1 + b e.clash 2 + b e.aged 4), (7, 4, e.heard), (11, 36, e.report.encode.toNat)]
    (∀ r : Rank,
      (s.rank.state = .ranked r → s.rosterReply r.val = [0#8]) ∧
      (s.rank.state ≠ .ranked r → s.roster.slots[r] = none → s.rosterReply r.val = [1#8]) ∧
      (∀ e, s.rank.state ≠ .ranked r → s.roster.slots[r] = some e → entry (s.rosterReply r.val) r.val e)) ∧
    ∀ i : Nat,
      (s.roster.unplaced[i]? = none → s.rosterReply (8 + i) = [1#8]) ∧
      (∀ e, s.roster.unplaced[i]? = some e → entry (s.rosterReply (8 + i)) 8 e)) ∧
    (∀ e : Entry, e.bytes.length = 19 ∧ reads e.bytes [
      (0, 3, e.key.serial.toNat), (3, 1, kindCode (some e.key.kind)),
      (4, 1, match e.key.circuit with | some c => c.val | none => (e.key.fn.map LampFn.code).getD 0),
      (5, 1, (e.key.fn.map LampFn.code).getD 8),
      (6, 1, e.severity.code + (match e.state with | .active => 0 | .cleared => 4 | .orphaned => 8) + b e.acked 16 +
        (if e.details.sign = some .source then 32 else 0)),
      (7, 1, e.occurrences), (8, 4, e.first.toNat), (12, 1, rankCode e.rankConf), (13, 1, rankCode e.rankCur),
      (14, 1, e.details.m), (15, 1, attributionCode e.details.attribution), (16, 1, e.details.front.getD 0),
      (17, 1, e.details.mask.toNat), (18, 1, e.extent)]) ∧
    (∀ (q : Query) (d : ReadingData),
      let asked := [(1, 1, q.tag.toNat), (2, 1, q.rank.val), (3, 3, q.serial.toNat), (6, 1, q.circuit.val)]
      SpotResult.none.bytes = List.replicate 18 0#8 ∧
      reads (SpotResult.pending q).bytes ([(0, 1, 1), (7, 11, 0)] ++ asked) ∧
      reads (SpotResult.timeout q).bytes ([(0, 1, 3), (7, 11, 0)] ++ asked) ∧
      reads (SpotResult.done q d).bytes ([(0, 1, 2)] ++ asked ++ [
        (7, 2, d.vm), (9, 2, d.im), (11, 2, d.inorm), (13, 2, d.r), (15, 1, d.m), (16, 1, d.n),
        (17, 1, d.learn.code)])) ∧
    (∀ e : Event, e.bytes.length = 10 ∧
      (let is := fun (kind index status : Nat) (n : Serial) => reads e.bytes [
        (0, 1, kind), (1, 1, index), (2, 1, status), (3, 3, n.toNat), (6, 4, e.seconds.toNat)]
      match e.body with
      | .faultConfirmed i n => is 1 i 0 n
      | .faultCleared i n => is 2 i 0 n
      | .faultOrphaned i n => is 3 i 0 n
      | .stationJoined n => is 4 0 0 n
      | .stationLost n => is 5 0 0 n
      | .rankChanged n => is 6 0 0 n
      | .learnDone n x => is 7 0 (match x with | .done => 1 | .notStarted => 2 | .lost => 3) n
      | .spotDone n tag timeout => is 8 tag.toNat (if timeout = true then 2 else 1) n
      | .coastBegin => is 9 0 0 0#24
      | .coastEnd => is 10 0 0 0#24))

/-- R194, R201, R202, R204: EVENT pops the oldest event, ACK acknowledges or removes the entry whose serial it names and
answers its state and the count left, ACK ALL leaves only acknowledged ACTIVE entries and answers how many it removed, CLEAR FLAGS clears the flags named. -/
def Obligations.HeadRequestsAct : Prop :=
  ∀ (i : Byte) (n : Serial) (s : State),
    s.port.frame = some .reply ∨ s.port.frame = some .noRequest → s.isHead = true →
    (s.events = [] → exec .event s = .next { s with port := ⟨.finished [0x34#8, 0#8], none, s.port.out⟩ }) ∧
    (∀ e rest, s.events = e :: rest → exec .event s = .next { s with
      events := rest, port := ⟨.finished (0x01#8 :: 0x0A#8 :: e.bytes), none, s.port.out⟩ }) ∧
    (∃ t, exec (.clearFlags i) s = .next t ∧ t = { s with flags := t.flags, port := t.port } ∧
      t.flags.eventOverflow = (s.flags.eventOverflow && !i.getLsbD 0) ∧
      t.flags.listOverflow = (s.flags.listOverflow && !i.getLsbD 1) ∧
      t.flags.txCutoff = (s.flags.txCutoff && !i.getLsbD 2) ∧
      t.flags.lineStuck = (s.flags.lineStuck && !i.getLsbD 3) ∧
      t.flags.storeFault = (s.flags.storeFault && !i.getLsbD 4) ∧
      t.flags.configFault = (s.flags.configFault && !i.getLsbD 5) ∧
      t.flags.rosterFull = (s.flags.rosterFull && !i.getLsbD 6) ∧
      t.port.slot = .finished [0x01#8, 0x01#8, t.flags.toByte]) ∧
    (∃ t, exec (.ack i n) s = .next t ∧ t = { s with faults := t.faults, warn := t.warn, port := t.port } ∧
      t.faults.overflow = s.faults.overflow ∧
      (s.faults.entries.length ≤ i.toNat → t.faults = s.faults ∧ t.port.slot = .finished [0x32#8, 0#8]) ∧
      (∀ pre e post, s.faults.entries = pre ++ e :: post → pre.length = i.toNat →
        (e.key.serial ≠ n → t.faults = s.faults ∧ t.port.slot = .finished [0x33#8, 0#8]) ∧
        (e.key.serial = n → t.port.slot = .finished [0x01#8, 0x02#8,
          match e.state with | .active => 0x00#8 | .cleared => 0x01#8 | .orphaned => 0x02#8,
          BitVec.ofNat 8 t.faults.entries.length]) ∧
        (e.key.serial = n → e.state = .active → t.faults.entries = pre ++ { e with acked := true } :: post) ∧
        (e.key.serial = n → e.state ≠ .active → t.faults.entries = pre ++ post))) ∧
    (∃ t, exec .ackAll s = .next t ∧ t = { s with faults := t.faults, warn := t.warn, port := t.port } ∧
      t.faults.entries = ((s.faults.entries.filter fun e => e.state == .active).map fun e => { e with acked := true }) ∧
      t.port.slot = .finished [0x01#8, 0x02#8,
        BitVec.ofNat 8 (s.faults.entries.length - t.faults.entries.length), BitVec.ofNat 8 t.faults.entries.length])

/-- R127, R207, R209: an accepted LEARN raises the learn epoch, tracks the stations that the mask finds and queues its
telegram; an accepted SPOT opens the query, and queues it or starts the local reading; both refusals. ACCEPTED carries the epoch
and the tracked mask, or the tag. -/
def Obligations.LearnAndSpotStart : Prop :=
  ∀ (stations circuits : Byte) (rank : Rank) (c : Circ) (s : State),
    s.port.frame = some .reply ∨ s.port.frame = some .noRequest → s.isHead = true → s.isSilent = false →
    let found := fun r : Rank => r ≠ 0 ∧ stations.getLsbD r.val = true ∧ s.roster.slots[r] ≠ none
    let spot := Instr.spot (BitVec.ofNat 8 rank.val) (BitVec.ofNat 8 c.val)
    let tag := s.query.nextTag
    let query := fun n : Serial => (⟨tag, rank, n, c, s.now + 500⟩ : Query)
    (∃ t, exec (.learn stations circuits) s = .next t ∧
      t = { s with learner := t.learner, link := t.link, port := t.port } ∧
      (s.learner.tracked ≠ [] ∨ s.link.slots.learn ≠ none →
        t.learner = s.learner ∧ t.link = s.link ∧ t.port.slot = .finished [0x30#8, 0#8]) ∧
      (s.learner.tracked = [] → s.link.slots.learn = none → (∀ r, ¬ found r) →
        t.learner = s.learner ∧ t.link = s.link ∧ t.port.slot = .finished [0x31#8, 0#8]) ∧
      (s.learner.tracked = [] → s.link.slots.learn = none → (∃ r, found r) →
        t.learner.epoch = s.learner.epoch + 1 ∧ t.learner.mask = circuits ∧
        (∃ m : Byte, t.port.slot = .finished [0x02#8, 0x02#8, s.learner.epoch + 1, m] ∧
          ∀ r : Rank, m.getLsbD r.val = true ↔ found r) ∧
        t.link.slots = { s.link.slots with learn := some (circuits ++ stations ++ (s.learner.epoch + 1)) } ∧
        (∀ r e, s.roster.slots[r] = some e → found r →
          (⟨e.serial, false, s.now + 2000⟩ : Tracked) ∈ t.learner.tracked) ∧
        (∀ u ∈ t.learner.tracked, ∃ r e, found r ∧ s.roster.slots[r] = some e ∧
          u = ⟨e.serial, false, s.now + 2000⟩))) ∧
    (s.query.outstanding ≠ none →
      exec spot s = .next { s with port := ⟨.finished [0x30#8, 0#8], none, s.port.out⟩ }) ∧
    (s.query.outstanding = none → rank ≠ 0 → s.roster.slots[rank] = none →
      exec spot s = .next { s with port := ⟨.finished [0x31#8, 0#8], none, s.port.out⟩ }) ∧
    (∀ e, s.query.outstanding = none → rank ≠ 0 → s.roster.slots[rank] = some e →
      ∃ t, exec spot s = .next t ∧ t = { s with query := t.query, link := t.link, port := t.port } ∧
        t.query.outstanding = some (query e.serial) ∧ t.query.nextTag = tag + 1 ∧
        t.query.result = .pending (query e.serial) ∧
        (s.link.slots.query = none →
          t.link.slots = { s.link.slots with query := some (queryPayload tag rank c) } ∧
          t.query.waiting = s.query.waiting) ∧
        (s.link.slots.query ≠ none → t.link = s.link ∧ t.query.waiting = some (queryPayload tag rank c)) ∧
        t.port.slot = .finished [0x02#8, 0x01#8, BitVec.ofNat 8 tag.toNat]) ∧
    (s.query.outstanding = none → rank = 0 →
      ∃ t, exec spot s = .next t ∧
        t = { s with query := t.query, spot := t.spot, conv := t.conv, port := t.port } ∧
        t.query.outstanding = some (query s.cfg.serial) ∧ t.spot.reading = some ⟨tag, c, 0, 0, 0⟩ ∧
        t.query.nextTag = tag + 1 ∧ t.query.result = .pending (query s.cfg.serial) ∧
        t.port.slot = .finished [0x02#8, 0x01#8, BitVec.ofNat 8 tag.toNat])

/-! ## The store and the reset -/

/-- R97, R109, R110, R112: STORE CONFIG starts a write of the block with its check byte, waits for the engine, or is
refused; a write that ends leaves what the item reads back, its result, and STORE FAULT on a mismatch; the engine then
starts the waiting block, or else the oldest waiting reference, whose save state becomes WRITING. That TOO LATE reads
the count in its 32 bits is DEDUCED (log entry 4). -/
def Obligations.StoreWritesStartAndEnd : Prop :=
  ∀ (block back : List Byte) (s : State),
    (s.port.frame = some .reply ∨ s.port.frame = some .noRequest →
      let late := 10000 ≤ s.now % 4294967296
      (late → exec (.storeConfig block) s = .next { s with port := ⟨.finished [0x40#8, 0#8], none, s.port.out⟩ }) ∧
      (¬ late → s.lowSupply.active = true → s.cfg.coastMask.lowSupply = true →
        exec (.storeConfig block) s = .next { s with port := ⟨.finished [0x41#8, 0#8], none, s.port.out⟩ }) ∧
      (¬ late → s.lowSupply.active = false ∨ s.cfg.coastMask.lowSupply = false → s.writes.current = none →
        exec (.storeConfig block) s = .next { s with
          writes := { s.writes with
            configSlot := none, current := some ⟨.config, block ++ [checkByte block], s.now + 10⟩ }
          port := ⟨.inProgress, none, s.port.out⟩ }) ∧
      (∀ w, ¬ late → s.lowSupply.active = false ∨ s.cfg.coastMask.lowSupply = false →
        s.writes.current = some w → exec (.storeConfig block) s = .next { s with
          writes := { s.writes with configSlot := some block }, port := ⟨.inProgress, none, s.port.out⟩ })) ∧
    (∀ w, s.writes.current = some w → w.finish ≤ s.now →
      let fault := { s.flags with storeFault := true }
      let waits := fun c : Circ => ∃ q ∈ s.writes.queue, q.circuit = c
      let saved := fun (c : Circ) (x : SaveState) =>
        ({ s.circuits[c] with ref := { s.circuits[c].ref with save := x } } : Circuit)
      let ended := fun c : Circ =>
        if w.item = .reference c ∧ ¬ waits c then saved c (if back = w.bytes then .saved else .failed)
        else s.circuits[c]
      ∃ t, exec (.storeWriteEnd back) s = .next t ∧
        t = { s with
          store := t.store, writes := t.writes, circuits := t.circuits, flags := t.flags, port := t.port } ∧
        t.flags = (if back = w.bytes then s.flags else fault) ∧
        (w.item = .config → t.store = { s.store with config := back } ∧
          t.port = { s.port with slot := .finished [if back = w.bytes then 0x01#8 else 0x42#8, 0#8] }) ∧
        (∀ c : Circ, w.item = .reference c → t.store.config = s.store.config ∧ t.store.refs[c] = back ∧
          (∀ d : Circ, d ≠ c → t.store.refs[d] = s.store.refs[d]) ∧ t.port = s.port) ∧
        (∀ x, s.writes.configSlot = some x →
          t.writes = ⟨s.writes.queue, none, some ⟨.config, x ++ [checkByte x], s.now + 10⟩⟩ ∧
          ∀ c : Circ, t.circuits[c] = ended c) ∧
        (∀ q rest, s.writes.configSlot = none → s.writes.queue = q :: rest →
          t.writes = ⟨rest, none, some ⟨.reference q.circuit,
            withCheck [BitVec.ofNat 8 q.iref, BitVec.ofNat 8 (q.iref / 256)], s.now + 10⟩⟩ ∧
          t.circuits[q.circuit] = saved q.circuit .writing ∧
          ∀ c : Circ, c ≠ q.circuit → t.circuits[c] = ended c) ∧
        (s.writes.configSlot = none → s.writes.queue = [] → t.writes = ⟨[], none, none⟩ ∧
          ∀ c : Circ, t.circuits[c] = ended c))

/-- R3 to R7, R107, R108, R215, R219, R220: the effective configuration and the reference units that a start-up reset
forms from the straps and the store: the check of the block, each field of a circuit word, each row of R5's table with
CONFIG FAULT, each row of R108's with STORE FAULT; and the balance feed of a function. The function of an erased
block's circuits is open (log entry 17). -/
def Obligations.EffectiveConfiguration : Prop :=
  ∀ s : State,
    (∀ (f : LampFn) (c : Circ), s.balanceFeed f = some c ↔
      s.isHead = true ∧ s.circuits[c].cfg.kind = .feed ∧ s.circuits[c].cfg.fn = f ∧
        ∀ d : Circ, d < c → ¬ (s.circuits[d].cfg.kind = .feed ∧ s.circuits[d].cfg.fn = f)) ∧
    ∃ t, exec .startUpReset s = .next t ∧
      (let block := t.store.config
      let content := block.dropLast
      let erased := fun item : List Byte => ∀ x ∈ item, x = 0xFF#8
      let agrees := fun item : List Byte => item = item.dropLast ++ [checkByte item.dropLast]
      let good := ¬ erased block ∧ agrees block
      let word := fun c : Circ => natLE ((content.drop (4 + 3 * c.val)).take 3)
      let kind := fun c : Circ => word c / 8 % 4
      let n := fun c : Circ => word c / 32 % 16
      let rating := fun c : Circ => word c / 512 % 1024
      let wrong := fun c : Circ =>
        (kind c = 3 ∧ s.pins.role = false) ∨ ((kind c = 1 ∨ kind c = 2) ∧ s.pins.role = true) ∨
          ((kind c = 1 ∨ kind c = 2) ∧ (n c = 0 ∨ 9 ≤ n c ∨ rating c = 0 ∨ 501 ≤ rating c))
      let badRecord := fun c : Circ => (t.circuits[c].cfg.kind = .incandescent ∨ t.circuits[c].cfg.kind = .led) ∧
        ¬ erased t.store.refs[c] ∧ ¬ agrees t.store.refs[c]
      t.cfg.role = (if s.pins.role = true then .head else .unit) ∧
      t.cfg.strapRate = (match s.pins.rate1, s.pins.rate0 with
        | false, false => .r19200 | false, true => .r38400 | true, false => .r57600 | true, true => .r115200) ∧
      (t.flags.configFault = true ↔ ¬ good ∨ ∃ c, wrong c) ∧
      (t.flags.storeFault = true ↔ ¬ good ∨ ∃ c, badRecord c) ∧
      (¬ good → t.cfg.serial = 0xFFFFFF#24 ∧ t.cfg.coastMask = ⟨true, true, true, true, true⟩ ∧
        ∀ c : Circ, t.circuits[c].cfg.kind = .notFitted ∧ t.circuits[c].cfg.n = 0 ∧ t.circuits[c].cfg.rating = 0) ∧
      (good →
        (let m := content.getD 3 0#8
        t.cfg.serial.toNat = natLE (content.take 3) ∧ t.cfg.coastMask =
          ⟨m.getLsbD 0, m.getLsbD 1, m.getLsbD 2, m.getLsbD 3, m.getLsbD 4⟩) ∧
        ∀ c : Circ,
          let k := t.circuits[c].cfg
          k.fn.code = word c % 8 ∧
          (kind c = 0 ∨ kind c = 3 ∧ s.pins.role = false ∨
            (kind c = 1 ∨ kind c = 2) ∧ (s.pins.role = true ∨ n c = 0) →
              k.kind = .notFitted ∧ k.n = 0 ∧ k.rating = 0) ∧
          (kind c = 3 → s.pins.role = true → k.kind = .feed ∧ k.n = 0 ∧ k.rating = 0) ∧
          (kind c = 1 ∨ kind c = 2 → s.pins.role = false → n c ≠ 0 →
            k.kind = (if kind c = 1 then .incandescent else .led) ∧ k.n = min (n c) 8 ∧
              k.rating = max 1 (min (rating c) 500))) ∧
      ∀ c : Circ,
        let k := t.circuits[c].cfg
        let u := t.circuits[c].ref
        let item := t.store.refs[c]
        let figure := natLE item.dropLast
        let nominal := k.n * k.rating * 10
        let fits := 1 ≤ figure ∧ figure ≤ 10920 ∧ (nominal + 1) / 2 ≤ figure ∧ figure ≤ (3 * nominal + 1) / 2
        let lamp := k.kind = .incandescent ∨ k.kind = .led
        let start := fun learn iref outcome save => (⟨learn, iref, 0, 0, none, none, outcome, save⟩ : RefUnit)
        (¬ lamp ∨ erased item → u = start .unlearned none .none .none) ∧
        (lamp → ¬ erased item → ¬ agrees item → u = start .unlearned none .recordBad .none) ∧
        (lamp → ¬ erased item → agrees item → ¬ fits → u = start .unlearned none .recordDiscarded .none) ∧
        (lamp → ¬ erased item → agrees item → fits → u = start .learned (some figure) .none .saved))

/-- R3, R25, R38, R49, R61, R95, R111, R114, R139, R142, R159, R175, R197, R206, R213: what a start-up reset leaves, with the STATUS
that it queues and the head's COMMAND of epoch 0, and that RESTART is one. -/
def Obligations.StartUpResetLeaves : Prop :=
  ∀ s : State,
    (s.port.frame = some .reply ∨ s.port.frame = some .noRequest → exec .restart s = exec .startUpReset s) ∧
    ∃ t, exec .startUpReset s = .next t ∧ t.pending = s.pending ∧ t.pins = s.pins ∧ t.ticks = 0 ∧
      t.cfg.role = (if s.pins.role = true then .head else .unit) ∧
      t.conv = ⟨none, [], false, false, none, 0, 0⟩ ∧ t.spot = ⟨none, none⟩ ∧ t.vs = none ∧
      t.lowSupply = ⟨false, none⟩ ∧ t.writes = ⟨[], none, none⟩ ∧ t.actedEpoch = none ∧ t.headClashAt = none ∧
      t.cmd = ⟨none, none, none, 0, 0⟩ ∧ t.intent = ⟨.replicate 8 false, false, .replicate 8 0, 0⟩ ∧
      t.tell = ⟨500, 100, false, none, none⟩ ∧ t.rear = ⟨false, none, 0⟩ ∧ t.secondAt = 1000 ∧
      t.source = ⟨0, 250, 0, none⟩ ∧
      (∀ c : Circ, t.circuits[c].energized = false ∧ t.circuits[c].lastOn = none ∧
        t.circuits[c].opened = (if t.circuits[c].cfg.kind = .notFitted then none else some (Rec.open .window 0 false)) ∧
        t.circuits[c].pendingSample = none ∧ t.circuits[c].glitch = 0 ∧ t.circuits[c].tracker = .dormant ∧
        t.circuits[c].queue = [] ∧ t.circuits[c].last = none ∧
        t.circuits[c].filter = .start t.circuits[c].cfg.n ∧ t.circuits[c].ref.k = 0 ∧
        t.circuits[c].ref.learn ≠ .learning) ∧
      t.roster = ⟨.replicate 8 none, []⟩ ∧ t.faults = ⟨[], 0⟩ ∧ t.warn = ⟨.off, false, none⟩ ∧ t.events = [] ∧
      t.trainSeconds = 0 ∧ t.learner = ⟨0, 0, []⟩ ∧ t.query = ⟨none, 0, none, .none, 0⟩ ∧
      t.port = ⟨.none, none, []⟩ ∧ t.balance = ⟨.replicate 8 none, none, .replicate 8 (.start 0)⟩ ∧
      (s.pins.role = true → t.rank = ⟨.ranked 0, none, 0, none, none⟩ ∧
        t.ring = [⟨0, .replicate 8 .off, 0, false, 0⟩]) ∧
      (s.pins.role = false → t.rank = ⟨.acquiring, none, 0, some 500, none⟩ ∧ t.ring = [] ∧
        t.activeCauses = ⟨false, false, true, false, true⟩) ∧
      t.link.receiver = .hunt ∧ t.link.presence = .listening ∧ t.link.errors = ⟨0, 0, 0, 0, 0, 0⟩ ∧
      t.link.cutRecord = [] ∧ t.link.stuckHold = false ∧ t.link.badRun = 0 ∧ t.link.driveFaults = 0 ∧
      t.link.aloneAt = some 2000 ∧ t.link.gapNs = 0 ∧ t.link.driverNs = 0 ∧ t.link.lineNs = 0 ∧
      (validSerial t.cfg.serial = true → t.link.tx = .waitGap ∧ t.link.slots = ⟨if s.pins.role = true then
        some (CommandContent.encode ⟨0, .replicate 8 .off, 0, false, true, 0⟩) else none,
        none, none, none, some t.report.encode⟩) ∧
      (validSerial t.cfg.serial = false → t.link.tx = .idle ∧ t.link.slots = ⟨none, none, none, none, none⟩) ∧
      t.flags = { Flags.clear with storeFault := t.flags.storeFault, configFault := t.flags.configFault } ∧
      (itemCondition t.store.config ≠ .good → t.flags.storeFault = true ∧ t.flags.configFault = true ∧
        t.cfg.serial = 0xFFFFFF#24 ∧ t.cfg.coastMask = .all ∧ ∀ c : Circ, t.circuits[c].cfg.kind = .notFitted) ∧
      (s.writes.current = none → t.store = s.store) ∧
      (∀ w, s.writes.current = some w →
        t.store = s.store ∨ t.store = s.store.write w.item w.bytes ∨
          ∃ bad, itemCondition bad = .bad ∧ t.store = s.store.write w.item bad)
end

