-- ==== Sys2Proof/Laws/State.lean ====
section
/-! SUPPORT. Fields of the state under the shared updates: what each leaves alone, field by field, for `simp`. -/

namespace Sys2Proof.Machine

/-! ## Eight like things -/

theorem eight_get {α : Type} (f : Circ → α) (c : Circ) : (eight f)[c] = f c := by
  fin_cases c <;> rfl

@[simp] theorem eight_get_val {α : Type} (f : Circ → α) (c : Circ) : (eight f)[c.val] = f c := eight_get f c

theorem put_same {α : Type} (v : Vector α 8) (c : Circ) (x : α) : (put v c x)[c] = x := by
  show (v.set c.val x c.isLt)[c.val] = x
  exact Vector.getElem_set_self _

@[simp] theorem put_same_val {α : Type} (v : Vector α 8) (c : Circ) (x : α) : (put v c x)[c.val] = x := put_same v c x

theorem put_other {α : Type} (v : Vector α 8) {c d : Circ} (x : α) (h : d ≠ c) : (put v c x)[d] = v[d] := by
  have e : (c : Nat) ≠ d := fun e => h (Fin.ext e.symm)
  show (v.set c.val x c.isLt)[d.val] = v[d.val]
  exact Vector.getElem_set_ne _ _ e

theorem put_get {α : Type} (v : Vector α 8) (c d : Circ) (x : α) : (put v c x)[d] = if d = c then x else v[d] := by
  by_cases h : d = c
  · rw [if_pos h, h]; exact put_same v c x
  · rw [if_neg h]; exact put_other v x h

theorem mem_allCirc (c : Circ) : c ∈ allCirc := by fin_cases c <;> decide

/-! ## setC -/

@[simp] theorem setC_pending (s : State) (c : Circ) (k : Circuit) : (s.setC c k).pending = s.pending := rfl

@[simp] theorem setC_free (s : State) (c : Circ) (k : Circuit) : (s.setC c k).free = s.free := rfl

@[simp] theorem setC_pins (s : State) (c : Circ) (k : Circuit) : (s.setC c k).pins = s.pins := rfl

@[simp] theorem setC_store (s : State) (c : Circ) (k : Circuit) : (s.setC c k).store = s.store := rfl

@[simp] theorem setC_writes (s : State) (c : Circ) (k : Circuit) : (s.setC c k).writes = s.writes := rfl

@[simp] theorem setC_cfg (s : State) (c : Circ) (k : Circuit) : (s.setC c k).cfg = s.cfg := rfl

@[simp] theorem setC_ticks (s : State) (c : Circ) (k : Circuit) : (s.setC c k).ticks = s.ticks := rfl

@[simp] theorem setC_conv (s : State) (c : Circ) (k : Circuit) : (s.setC c k).conv = s.conv := rfl

@[simp] theorem setC_spot (s : State) (c : Circ) (k : Circuit) : (s.setC c k).spot = s.spot := rfl

@[simp] theorem setC_vs (s : State) (c : Circ) (k : Circuit) : (s.setC c k).vs = s.vs := rfl

@[simp] theorem setC_lowSupply (s : State) (c : Circ) (k : Circuit) : (s.setC c k).lowSupply = s.lowSupply := rfl

@[simp] theorem setC_actedEpoch (s : State) (c : Circ) (k : Circuit) : (s.setC c k).actedEpoch = s.actedEpoch := rfl

@[simp] theorem setC_ring (s : State) (c : Circ) (k : Circuit) : (s.setC c k).ring = s.ring := rfl

@[simp] theorem setC_cmd (s : State) (c : Circ) (k : Circuit) : (s.setC c k).cmd = s.cmd := rfl

@[simp] theorem setC_intent (s : State) (c : Circ) (k : Circuit) : (s.setC c k).intent = s.intent := rfl

@[simp] theorem setC_source (s : State) (c : Circ) (k : Circuit) : (s.setC c k).source = s.source := rfl

@[simp] theorem setC_headClashAt (s : State) (c : Circ) (k : Circuit) : (s.setC c k).headClashAt = s.headClashAt := rfl

@[simp] theorem setC_link (s : State) (c : Circ) (k : Circuit) : (s.setC c k).link = s.link := rfl

@[simp] theorem setC_tell (s : State) (c : Circ) (k : Circuit) : (s.setC c k).tell = s.tell := rfl

@[simp] theorem setC_rank (s : State) (c : Circ) (k : Circuit) : (s.setC c k).rank = s.rank := rfl

@[simp] theorem setC_rear (s : State) (c : Circ) (k : Circuit) : (s.setC c k).rear = s.rear := rfl

@[simp] theorem setC_roster (s : State) (c : Circ) (k : Circuit) : (s.setC c k).roster = s.roster := rfl

@[simp] theorem setC_balance (s : State) (c : Circ) (k : Circuit) : (s.setC c k).balance = s.balance := rfl

@[simp] theorem setC_faults (s : State) (c : Circ) (k : Circuit) : (s.setC c k).faults = s.faults := rfl

@[simp] theorem setC_warn (s : State) (c : Circ) (k : Circuit) : (s.setC c k).warn = s.warn := rfl

@[simp] theorem setC_events (s : State) (c : Circ) (k : Circuit) : (s.setC c k).events = s.events := rfl

@[simp] theorem setC_trainSeconds (s : State) (c : Circ) (k : Circuit) : (s.setC c k).trainSeconds = s.trainSeconds := rfl

@[simp] theorem setC_secondAt (s : State) (c : Circ) (k : Circuit) : (s.setC c k).secondAt = s.secondAt := rfl

@[simp] theorem setC_learner (s : State) (c : Circ) (k : Circuit) : (s.setC c k).learner = s.learner := rfl

@[simp] theorem setC_query (s : State) (c : Circ) (k : Circuit) : (s.setC c k).query = s.query := rfl

@[simp] theorem setC_port (s : State) (c : Circ) (k : Circuit) : (s.setC c k).port = s.port := rfl

@[simp] theorem setC_flags (s : State) (c : Circ) (k : Circuit) : (s.setC c k).flags = s.flags := rfl

/-! ## raise -/

@[simp] theorem raise_pending (s : State) (b : EventBody) : (s.raise b).pending = s.pending := by
  unfold State.raise
  repeat' split
  all_goals rfl

@[simp] theorem raise_free (s : State) (b : EventBody) : (s.raise b).free = s.free := by
  unfold State.raise
  repeat' split
  all_goals rfl

@[simp] theorem raise_pins (s : State) (b : EventBody) : (s.raise b).pins = s.pins := by
  unfold State.raise
  repeat' split
  all_goals rfl

@[simp] theorem raise_store (s : State) (b : EventBody) : (s.raise b).store = s.store := by
  unfold State.raise
  repeat' split
  all_goals rfl

@[simp] theorem raise_writes (s : State) (b : EventBody) : (s.raise b).writes = s.writes := by
  unfold State.raise
  repeat' split
  all_goals rfl

@[simp] theorem raise_cfg (s : State) (b : EventBody) : (s.raise b).cfg = s.cfg := by
  unfold State.raise
  repeat' split
  all_goals rfl

@[simp] theorem raise_ticks (s : State) (b : EventBody) : (s.raise b).ticks = s.ticks := by
  unfold State.raise
  repeat' split
  all_goals rfl

@[simp] theorem raise_conv (s : State) (b : EventBody) : (s.raise b).conv = s.conv := by
  unfold State.raise
  repeat' split
  all_goals rfl

@[simp] theorem raise_spot (s : State) (b : EventBody) : (s.raise b).spot = s.spot := by
  unfold State.raise
  repeat' split
  all_goals rfl

@[simp] theorem raise_vs (s : State) (b : EventBody) : (s.raise b).vs = s.vs := by
  unfold State.raise
  repeat' split
  all_goals rfl

@[simp] theorem raise_lowSupply (s : State) (b : EventBody) : (s.raise b).lowSupply = s.lowSupply := by
  unfold State.raise
  repeat' split
  all_goals rfl

@[simp] theorem raise_circuits (s : State) (b : EventBody) : (s.raise b).circuits = s.circuits := by
  unfold State.raise
  repeat' split
  all_goals rfl

@[simp] theorem raise_actedEpoch (s : State) (b : EventBody) : (s.raise b).actedEpoch = s.actedEpoch := by
  unfold State.raise
  repeat' split
  all_goals rfl

@[simp] theorem raise_ring (s : State) (b : EventBody) : (s.raise b).ring = s.ring := by
  unfold State.raise
  repeat' split
  all_goals rfl

@[simp] theorem raise_cmd (s : State) (b : EventBody) : (s.raise b).cmd = s.cmd := by
  unfold State.raise
  repeat' split
  all_goals rfl

@[simp] theorem raise_intent (s : State) (b : EventBody) : (s.raise b).intent = s.intent := by
  unfold State.raise
  repeat' split
  all_goals rfl

@[simp] theorem raise_source (s : State) (b : EventBody) : (s.raise b).source = s.source := by
  unfold State.raise
  repeat' split
  all_goals rfl

@[simp] theorem raise_headClashAt (s : State) (b : EventBody) : (s.raise b).headClashAt = s.headClashAt := by
  unfold State.raise
  repeat' split
  all_goals rfl

@[simp] theorem raise_link (s : State) (b : EventBody) : (s.raise b).link = s.link := by
  unfold State.raise
  repeat' split
  all_goals rfl

@[simp] theorem raise_tell (s : State) (b : EventBody) : (s.raise b).tell = s.tell := by
  unfold State.raise
  repeat' split
  all_goals rfl

@[simp] theorem raise_rank (s : State) (b : EventBody) : (s.raise b).rank = s.rank := by
  unfold State.raise
  repeat' split
  all_goals rfl

@[simp] theorem raise_rear (s : State) (b : EventBody) : (s.raise b).rear = s.rear := by
  unfold State.raise
  repeat' split
  all_goals rfl

@[simp] theorem raise_roster (s : State) (b : EventBody) : (s.raise b).roster = s.roster := by
  unfold State.raise
  repeat' split
  all_goals rfl

@[simp] theorem raise_balance (s : State) (b : EventBody) : (s.raise b).balance = s.balance := by
  unfold State.raise
  repeat' split
  all_goals rfl

@[simp] theorem raise_faults (s : State) (b : EventBody) : (s.raise b).faults = s.faults := by
  unfold State.raise
  repeat' split
  all_goals rfl

@[simp] theorem raise_warn (s : State) (b : EventBody) : (s.raise b).warn = s.warn := by
  unfold State.raise
  repeat' split
  all_goals rfl

@[simp] theorem raise_trainSeconds (s : State) (b : EventBody) : (s.raise b).trainSeconds = s.trainSeconds := by
  unfold State.raise
  repeat' split
  all_goals rfl

@[simp] theorem raise_secondAt (s : State) (b : EventBody) : (s.raise b).secondAt = s.secondAt := by
  unfold State.raise
  repeat' split
  all_goals rfl

@[simp] theorem raise_learner (s : State) (b : EventBody) : (s.raise b).learner = s.learner := by
  unfold State.raise
  repeat' split
  all_goals rfl

@[simp] theorem raise_query (s : State) (b : EventBody) : (s.raise b).query = s.query := by
  unfold State.raise
  repeat' split
  all_goals rfl

@[simp] theorem raise_port (s : State) (b : EventBody) : (s.raise b).port = s.port := by
  unfold State.raise
  repeat' split
  all_goals rfl

/-! ## putSlot -/

@[simp] theorem putSlot_pending (s : State) (k : TKind) (f : Slots → Slots) : (s.putSlot k f).pending = s.pending := by
  unfold State.putSlot
  split <;> rfl

@[simp] theorem putSlot_free (s : State) (k : TKind) (f : Slots → Slots) : (s.putSlot k f).free = s.free := by
  unfold State.putSlot
  split <;> rfl

@[simp] theorem putSlot_pins (s : State) (k : TKind) (f : Slots → Slots) : (s.putSlot k f).pins = s.pins := by
  unfold State.putSlot
  split <;> rfl

@[simp] theorem putSlot_store (s : State) (k : TKind) (f : Slots → Slots) : (s.putSlot k f).store = s.store := by
  unfold State.putSlot
  split <;> rfl

@[simp] theorem putSlot_writes (s : State) (k : TKind) (f : Slots → Slots) : (s.putSlot k f).writes = s.writes := by
  unfold State.putSlot
  split <;> rfl

@[simp] theorem putSlot_cfg (s : State) (k : TKind) (f : Slots → Slots) : (s.putSlot k f).cfg = s.cfg := by
  unfold State.putSlot
  split <;> rfl

@[simp] theorem putSlot_ticks (s : State) (k : TKind) (f : Slots → Slots) : (s.putSlot k f).ticks = s.ticks := by
  unfold State.putSlot
  split <;> rfl

@[simp] theorem putSlot_conv (s : State) (k : TKind) (f : Slots → Slots) : (s.putSlot k f).conv = s.conv := by
  unfold State.putSlot
  split <;> rfl

@[simp] theorem putSlot_spot (s : State) (k : TKind) (f : Slots → Slots) : (s.putSlot k f).spot = s.spot := by
  unfold State.putSlot
  split <;> rfl

@[simp] theorem putSlot_vs (s : State) (k : TKind) (f : Slots → Slots) : (s.putSlot k f).vs = s.vs := by
  unfold State.putSlot
  split <;> rfl

@[simp] theorem putSlot_lowSupply (s : State) (k : TKind) (f : Slots → Slots) : (s.putSlot k f).lowSupply = s.lowSupply := by
  unfold State.putSlot
  split <;> rfl

@[simp] theorem putSlot_circuits (s : State) (k : TKind) (f : Slots → Slots) : (s.putSlot k f).circuits = s.circuits := by
  unfold State.putSlot
  split <;> rfl

@[simp] theorem putSlot_actedEpoch (s : State) (k : TKind) (f : Slots → Slots) : (s.putSlot k f).actedEpoch = s.actedEpoch := by
  unfold State.putSlot
  split <;> rfl

@[simp] theorem putSlot_ring (s : State) (k : TKind) (f : Slots → Slots) : (s.putSlot k f).ring = s.ring := by
  unfold State.putSlot
  split <;> rfl

@[simp] theorem putSlot_cmd (s : State) (k : TKind) (f : Slots → Slots) : (s.putSlot k f).cmd = s.cmd := by
  unfold State.putSlot
  split <;> rfl

@[simp] theorem putSlot_intent (s : State) (k : TKind) (f : Slots → Slots) : (s.putSlot k f).intent = s.intent := by
  unfold State.putSlot
  split <;> rfl

@[simp] theorem putSlot_source (s : State) (k : TKind) (f : Slots → Slots) : (s.putSlot k f).source = s.source := by
  unfold State.putSlot
  split <;> rfl

@[simp] theorem putSlot_headClashAt (s : State) (k : TKind) (f : Slots → Slots) : (s.putSlot k f).headClashAt = s.headClashAt := by
  unfold State.putSlot
  split <;> rfl

@[simp] theorem putSlot_tell (s : State) (k : TKind) (f : Slots → Slots) : (s.putSlot k f).tell = s.tell := by
  unfold State.putSlot
  split <;> rfl

@[simp] theorem putSlot_rank (s : State) (k : TKind) (f : Slots → Slots) : (s.putSlot k f).rank = s.rank := by
  unfold State.putSlot
  split <;> rfl

@[simp] theorem putSlot_rear (s : State) (k : TKind) (f : Slots → Slots) : (s.putSlot k f).rear = s.rear := by
  unfold State.putSlot
  split <;> rfl

@[simp] theorem putSlot_roster (s : State) (k : TKind) (f : Slots → Slots) : (s.putSlot k f).roster = s.roster := by
  unfold State.putSlot
  split <;> rfl

@[simp] theorem putSlot_balance (s : State) (k : TKind) (f : Slots → Slots) : (s.putSlot k f).balance = s.balance := by
  unfold State.putSlot
  split <;> rfl

@[simp] theorem putSlot_faults (s : State) (k : TKind) (f : Slots → Slots) : (s.putSlot k f).faults = s.faults := by
  unfold State.putSlot
  split <;> rfl

@[simp] theorem putSlot_warn (s : State) (k : TKind) (f : Slots → Slots) : (s.putSlot k f).warn = s.warn := by
  unfold State.putSlot
  split <;> rfl

@[simp] theorem putSlot_events (s : State) (k : TKind) (f : Slots → Slots) : (s.putSlot k f).events = s.events := by
  unfold State.putSlot
  split <;> rfl

@[simp] theorem putSlot_trainSeconds (s : State) (k : TKind) (f : Slots → Slots) : (s.putSlot k f).trainSeconds = s.trainSeconds := by
  unfold State.putSlot
  split <;> rfl

@[simp] theorem putSlot_secondAt (s : State) (k : TKind) (f : Slots → Slots) : (s.putSlot k f).secondAt = s.secondAt := by
  unfold State.putSlot
  split <;> rfl

@[simp] theorem putSlot_learner (s : State) (k : TKind) (f : Slots → Slots) : (s.putSlot k f).learner = s.learner := by
  unfold State.putSlot
  split <;> rfl

@[simp] theorem putSlot_query (s : State) (k : TKind) (f : Slots → Slots) : (s.putSlot k f).query = s.query := by
  unfold State.putSlot
  split <;> rfl

@[simp] theorem putSlot_port (s : State) (k : TKind) (f : Slots → Slots) : (s.putSlot k f).port = s.port := by
  unfold State.putSlot
  split <;> rfl

@[simp] theorem putSlot_flags (s : State) (k : TKind) (f : Slots → Slots) : (s.putSlot k f).flags = s.flags := by
  unfold State.putSlot
  split <;> rfl

/-! ## queueStatus -/

@[simp] theorem queueStatus_pending (s : State) : (s.queueStatus).pending = s.pending := by
  simp [State.queueStatus]

@[simp] theorem queueStatus_free (s : State) : (s.queueStatus).free = s.free := by
  simp [State.queueStatus]

@[simp] theorem queueStatus_pins (s : State) : (s.queueStatus).pins = s.pins := by
  simp [State.queueStatus]

@[simp] theorem queueStatus_store (s : State) : (s.queueStatus).store = s.store := by
  simp [State.queueStatus]

@[simp] theorem queueStatus_writes (s : State) : (s.queueStatus).writes = s.writes := by
  simp [State.queueStatus]

@[simp] theorem queueStatus_cfg (s : State) : (s.queueStatus).cfg = s.cfg := by
  simp [State.queueStatus]

@[simp] theorem queueStatus_ticks (s : State) : (s.queueStatus).ticks = s.ticks := by
  simp [State.queueStatus]

@[simp] theorem queueStatus_conv (s : State) : (s.queueStatus).conv = s.conv := by
  simp [State.queueStatus]

@[simp] theorem queueStatus_spot (s : State) : (s.queueStatus).spot = s.spot := by
  simp [State.queueStatus]

@[simp] theorem queueStatus_vs (s : State) : (s.queueStatus).vs = s.vs := by
  simp [State.queueStatus]

@[simp] theorem queueStatus_lowSupply (s : State) : (s.queueStatus).lowSupply = s.lowSupply := by
  simp [State.queueStatus]

@[simp] theorem queueStatus_circuits (s : State) : (s.queueStatus).circuits = s.circuits := by
  simp [State.queueStatus]

@[simp] theorem queueStatus_actedEpoch (s : State) : (s.queueStatus).actedEpoch = s.actedEpoch := by
  simp [State.queueStatus]

@[simp] theorem queueStatus_ring (s : State) : (s.queueStatus).ring = s.ring := by
  simp [State.queueStatus]

@[simp] theorem queueStatus_cmd (s : State) : (s.queueStatus).cmd = s.cmd := by
  simp [State.queueStatus]

@[simp] theorem queueStatus_intent (s : State) : (s.queueStatus).intent = s.intent := by
  simp [State.queueStatus]

@[simp] theorem queueStatus_source (s : State) : (s.queueStatus).source = s.source := by
  simp [State.queueStatus]

@[simp] theorem queueStatus_headClashAt (s : State) : (s.queueStatus).headClashAt = s.headClashAt := by
  simp [State.queueStatus]

@[simp] theorem queueStatus_rank (s : State) : (s.queueStatus).rank = s.rank := by
  simp [State.queueStatus]

@[simp] theorem queueStatus_rear (s : State) : (s.queueStatus).rear = s.rear := by
  simp [State.queueStatus]

@[simp] theorem queueStatus_roster (s : State) : (s.queueStatus).roster = s.roster := by
  simp [State.queueStatus]

@[simp] theorem queueStatus_balance (s : State) : (s.queueStatus).balance = s.balance := by
  simp [State.queueStatus]

@[simp] theorem queueStatus_faults (s : State) : (s.queueStatus).faults = s.faults := by
  simp [State.queueStatus]

@[simp] theorem queueStatus_warn (s : State) : (s.queueStatus).warn = s.warn := by
  simp [State.queueStatus]

@[simp] theorem queueStatus_events (s : State) : (s.queueStatus).events = s.events := by
  simp [State.queueStatus]

@[simp] theorem queueStatus_trainSeconds (s : State) : (s.queueStatus).trainSeconds = s.trainSeconds := by
  simp [State.queueStatus]

@[simp] theorem queueStatus_secondAt (s : State) : (s.queueStatus).secondAt = s.secondAt := by
  simp [State.queueStatus]

@[simp] theorem queueStatus_learner (s : State) : (s.queueStatus).learner = s.learner := by
  simp [State.queueStatus]

@[simp] theorem queueStatus_query (s : State) : (s.queueStatus).query = s.query := by
  simp [State.queueStatus]

@[simp] theorem queueStatus_port (s : State) : (s.queueStatus).port = s.port := by
  simp [State.queueStatus]

@[simp] theorem queueStatus_flags (s : State) : (s.queueStatus).flags = s.flags := by
  simp [State.queueStatus]

/-! ## queueCommand -/

@[simp] theorem queueCommand_pending (s : State) : (s.queueCommand).pending = s.pending := by
  simp [State.queueCommand]

@[simp] theorem queueCommand_free (s : State) : (s.queueCommand).free = s.free := by
  simp [State.queueCommand]

@[simp] theorem queueCommand_pins (s : State) : (s.queueCommand).pins = s.pins := by
  simp [State.queueCommand]

@[simp] theorem queueCommand_store (s : State) : (s.queueCommand).store = s.store := by
  simp [State.queueCommand]

@[simp] theorem queueCommand_writes (s : State) : (s.queueCommand).writes = s.writes := by
  simp [State.queueCommand]

@[simp] theorem queueCommand_cfg (s : State) : (s.queueCommand).cfg = s.cfg := by
  simp [State.queueCommand]

@[simp] theorem queueCommand_ticks (s : State) : (s.queueCommand).ticks = s.ticks := by
  simp [State.queueCommand]

@[simp] theorem queueCommand_conv (s : State) : (s.queueCommand).conv = s.conv := by
  simp [State.queueCommand]

@[simp] theorem queueCommand_spot (s : State) : (s.queueCommand).spot = s.spot := by
  simp [State.queueCommand]

@[simp] theorem queueCommand_vs (s : State) : (s.queueCommand).vs = s.vs := by
  simp [State.queueCommand]

@[simp] theorem queueCommand_lowSupply (s : State) : (s.queueCommand).lowSupply = s.lowSupply := by
  simp [State.queueCommand]

@[simp] theorem queueCommand_circuits (s : State) : (s.queueCommand).circuits = s.circuits := by
  simp [State.queueCommand]

@[simp] theorem queueCommand_actedEpoch (s : State) : (s.queueCommand).actedEpoch = s.actedEpoch := by
  simp [State.queueCommand]

@[simp] theorem queueCommand_ring (s : State) : (s.queueCommand).ring = s.ring := by
  simp [State.queueCommand]

@[simp] theorem queueCommand_cmd (s : State) : (s.queueCommand).cmd = s.cmd := by
  simp [State.queueCommand]

@[simp] theorem queueCommand_intent (s : State) : (s.queueCommand).intent = s.intent := by
  simp [State.queueCommand]

@[simp] theorem queueCommand_headClashAt (s : State) : (s.queueCommand).headClashAt = s.headClashAt := by
  simp [State.queueCommand]

@[simp] theorem queueCommand_tell (s : State) : (s.queueCommand).tell = s.tell := by
  simp [State.queueCommand]

@[simp] theorem queueCommand_rank (s : State) : (s.queueCommand).rank = s.rank := by
  simp [State.queueCommand]

@[simp] theorem queueCommand_rear (s : State) : (s.queueCommand).rear = s.rear := by
  simp [State.queueCommand]

@[simp] theorem queueCommand_roster (s : State) : (s.queueCommand).roster = s.roster := by
  simp [State.queueCommand]

@[simp] theorem queueCommand_balance (s : State) : (s.queueCommand).balance = s.balance := by
  simp [State.queueCommand]

@[simp] theorem queueCommand_faults (s : State) : (s.queueCommand).faults = s.faults := by
  simp [State.queueCommand]

@[simp] theorem queueCommand_warn (s : State) : (s.queueCommand).warn = s.warn := by
  simp [State.queueCommand]

@[simp] theorem queueCommand_events (s : State) : (s.queueCommand).events = s.events := by
  simp [State.queueCommand]

@[simp] theorem queueCommand_trainSeconds (s : State) : (s.queueCommand).trainSeconds = s.trainSeconds := by
  simp [State.queueCommand]

@[simp] theorem queueCommand_secondAt (s : State) : (s.queueCommand).secondAt = s.secondAt := by
  simp [State.queueCommand]

@[simp] theorem queueCommand_learner (s : State) : (s.queueCommand).learner = s.learner := by
  simp [State.queueCommand]

@[simp] theorem queueCommand_query (s : State) : (s.queueCommand).query = s.query := by
  simp [State.queueCommand]

@[simp] theorem queueCommand_port (s : State) : (s.queueCommand).port = s.port := by
  simp [State.queueCommand]

@[simp] theorem queueCommand_flags (s : State) : (s.queueCommand).flags = s.flags := by
  simp [State.queueCommand]

/-! ## noteChange -/

@[simp] theorem noteChange_pending (s : State) : (s.noteChange).pending = s.pending := by
  unfold State.noteChange
  split <;> simp

@[simp] theorem noteChange_free (s : State) : (s.noteChange).free = s.free := by
  unfold State.noteChange
  split <;> simp

@[simp] theorem noteChange_pins (s : State) : (s.noteChange).pins = s.pins := by
  unfold State.noteChange
  split <;> simp

@[simp] theorem noteChange_store (s : State) : (s.noteChange).store = s.store := by
  unfold State.noteChange
  split <;> simp

@[simp] theorem noteChange_writes (s : State) : (s.noteChange).writes = s.writes := by
  unfold State.noteChange
  split <;> simp

@[simp] theorem noteChange_cfg (s : State) : (s.noteChange).cfg = s.cfg := by
  unfold State.noteChange
  split <;> simp

@[simp] theorem noteChange_ticks (s : State) : (s.noteChange).ticks = s.ticks := by
  unfold State.noteChange
  split <;> simp

@[simp] theorem noteChange_conv (s : State) : (s.noteChange).conv = s.conv := by
  unfold State.noteChange
  split <;> simp

@[simp] theorem noteChange_spot (s : State) : (s.noteChange).spot = s.spot := by
  unfold State.noteChange
  split <;> simp

@[simp] theorem noteChange_vs (s : State) : (s.noteChange).vs = s.vs := by
  unfold State.noteChange
  split <;> simp

@[simp] theorem noteChange_lowSupply (s : State) : (s.noteChange).lowSupply = s.lowSupply := by
  unfold State.noteChange
  split <;> simp

@[simp] theorem noteChange_circuits (s : State) : (s.noteChange).circuits = s.circuits := by
  unfold State.noteChange
  split <;> simp

@[simp] theorem noteChange_actedEpoch (s : State) : (s.noteChange).actedEpoch = s.actedEpoch := by
  unfold State.noteChange
  split <;> simp

@[simp] theorem noteChange_ring (s : State) : (s.noteChange).ring = s.ring := by
  unfold State.noteChange
  split <;> simp

@[simp] theorem noteChange_cmd (s : State) : (s.noteChange).cmd = s.cmd := by
  unfold State.noteChange
  split <;> simp

@[simp] theorem noteChange_intent (s : State) : (s.noteChange).intent = s.intent := by
  unfold State.noteChange
  split <;> simp

@[simp] theorem noteChange_source (s : State) : (s.noteChange).source = s.source := by
  unfold State.noteChange
  split <;> simp

@[simp] theorem noteChange_headClashAt (s : State) : (s.noteChange).headClashAt = s.headClashAt := by
  unfold State.noteChange
  split <;> simp

@[simp] theorem noteChange_rank (s : State) : (s.noteChange).rank = s.rank := by
  unfold State.noteChange
  split <;> simp

@[simp] theorem noteChange_rear (s : State) : (s.noteChange).rear = s.rear := by
  unfold State.noteChange
  split <;> simp

@[simp] theorem noteChange_roster (s : State) : (s.noteChange).roster = s.roster := by
  unfold State.noteChange
  split <;> simp

@[simp] theorem noteChange_balance (s : State) : (s.noteChange).balance = s.balance := by
  unfold State.noteChange
  split <;> simp

@[simp] theorem noteChange_faults (s : State) : (s.noteChange).faults = s.faults := by
  unfold State.noteChange
  split <;> simp

@[simp] theorem noteChange_warn (s : State) : (s.noteChange).warn = s.warn := by
  unfold State.noteChange
  split <;> simp

@[simp] theorem noteChange_events (s : State) : (s.noteChange).events = s.events := by
  unfold State.noteChange
  split <;> simp

@[simp] theorem noteChange_trainSeconds (s : State) : (s.noteChange).trainSeconds = s.trainSeconds := by
  unfold State.noteChange
  split <;> simp

@[simp] theorem noteChange_secondAt (s : State) : (s.noteChange).secondAt = s.secondAt := by
  unfold State.noteChange
  split <;> simp

@[simp] theorem noteChange_learner (s : State) : (s.noteChange).learner = s.learner := by
  unfold State.noteChange
  split <;> simp

@[simp] theorem noteChange_query (s : State) : (s.noteChange).query = s.query := by
  unfold State.noteChange
  split <;> simp

@[simp] theorem noteChange_port (s : State) : (s.noteChange).port = s.port := by
  unfold State.noteChange
  split <;> simp

@[simp] theorem noteChange_flags (s : State) : (s.noteChange).flags = s.flags := by
  unfold State.noteChange
  split <;> simp

/-! ## announce -/

@[simp] theorem announce_pending (s : State) (b : State) : (announce b s).pending = s.pending := by
  unfold announce
  split <;> simp

@[simp] theorem announce_free (s : State) (b : State) : (announce b s).free = s.free := by
  unfold announce
  split <;> simp

@[simp] theorem announce_pins (s : State) (b : State) : (announce b s).pins = s.pins := by
  unfold announce
  split <;> simp

@[simp] theorem announce_store (s : State) (b : State) : (announce b s).store = s.store := by
  unfold announce
  split <;> simp

@[simp] theorem announce_writes (s : State) (b : State) : (announce b s).writes = s.writes := by
  unfold announce
  split <;> simp

@[simp] theorem announce_cfg (s : State) (b : State) : (announce b s).cfg = s.cfg := by
  unfold announce
  split <;> simp

@[simp] theorem announce_ticks (s : State) (b : State) : (announce b s).ticks = s.ticks := by
  unfold announce
  split <;> simp

@[simp] theorem announce_conv (s : State) (b : State) : (announce b s).conv = s.conv := by
  unfold announce
  split <;> simp

@[simp] theorem announce_spot (s : State) (b : State) : (announce b s).spot = s.spot := by
  unfold announce
  split <;> simp

@[simp] theorem announce_vs (s : State) (b : State) : (announce b s).vs = s.vs := by
  unfold announce
  split <;> simp

@[simp] theorem announce_lowSupply (s : State) (b : State) : (announce b s).lowSupply = s.lowSupply := by
  unfold announce
  split <;> simp

@[simp] theorem announce_circuits (s : State) (b : State) : (announce b s).circuits = s.circuits := by
  unfold announce
  split <;> simp

@[simp] theorem announce_actedEpoch (s : State) (b : State) : (announce b s).actedEpoch = s.actedEpoch := by
  unfold announce
  split <;> simp

@[simp] theorem announce_ring (s : State) (b : State) : (announce b s).ring = s.ring := by
  unfold announce
  split <;> simp

@[simp] theorem announce_cmd (s : State) (b : State) : (announce b s).cmd = s.cmd := by
  unfold announce
  split <;> simp

@[simp] theorem announce_intent (s : State) (b : State) : (announce b s).intent = s.intent := by
  unfold announce
  split <;> simp

@[simp] theorem announce_source (s : State) (b : State) : (announce b s).source = s.source := by
  unfold announce
  split <;> simp

@[simp] theorem announce_headClashAt (s : State) (b : State) : (announce b s).headClashAt = s.headClashAt := by
  unfold announce
  split <;> simp

@[simp] theorem announce_rank (s : State) (b : State) : (announce b s).rank = s.rank := by
  unfold announce
  split <;> simp

@[simp] theorem announce_rear (s : State) (b : State) : (announce b s).rear = s.rear := by
  unfold announce
  split <;> simp

@[simp] theorem announce_roster (s : State) (b : State) : (announce b s).roster = s.roster := by
  unfold announce
  split <;> simp

@[simp] theorem announce_balance (s : State) (b : State) : (announce b s).balance = s.balance := by
  unfold announce
  split <;> simp

@[simp] theorem announce_faults (s : State) (b : State) : (announce b s).faults = s.faults := by
  unfold announce
  split <;> simp

@[simp] theorem announce_warn (s : State) (b : State) : (announce b s).warn = s.warn := by
  unfold announce
  split <;> simp

@[simp] theorem announce_events (s : State) (b : State) : (announce b s).events = s.events := by
  unfold announce
  split <;> simp

@[simp] theorem announce_trainSeconds (s : State) (b : State) : (announce b s).trainSeconds = s.trainSeconds := by
  unfold announce
  split <;> simp

@[simp] theorem announce_secondAt (s : State) (b : State) : (announce b s).secondAt = s.secondAt := by
  unfold announce
  split <;> simp

@[simp] theorem announce_learner (s : State) (b : State) : (announce b s).learner = s.learner := by
  unfold announce
  split <;> simp

@[simp] theorem announce_query (s : State) (b : State) : (announce b s).query = s.query := by
  unfold announce
  split <;> simp

@[simp] theorem announce_port (s : State) (b : State) : (announce b s).port = s.port := by
  unfold announce
  split <;> simp

@[simp] theorem announce_flags (s : State) (b : State) : (announce b s).flags = s.flags := by
  unfold announce
  split <;> simp

/-! ## coastEdge -/

@[simp] theorem coastEdge_pending (s : State) (b : State) : (coastEdge b s).pending = s.pending := by
  unfold coastEdge
  repeat' split
  all_goals simp

@[simp] theorem coastEdge_free (s : State) (b : State) : (coastEdge b s).free = s.free := by
  unfold coastEdge
  repeat' split
  all_goals simp

@[simp] theorem coastEdge_pins (s : State) (b : State) : (coastEdge b s).pins = s.pins := by
  unfold coastEdge
  repeat' split
  all_goals simp

@[simp] theorem coastEdge_store (s : State) (b : State) : (coastEdge b s).store = s.store := by
  unfold coastEdge
  repeat' split
  all_goals simp

@[simp] theorem coastEdge_writes (s : State) (b : State) : (coastEdge b s).writes = s.writes := by
  unfold coastEdge
  repeat' split
  all_goals simp

@[simp] theorem coastEdge_cfg (s : State) (b : State) : (coastEdge b s).cfg = s.cfg := by
  unfold coastEdge
  repeat' split
  all_goals simp

@[simp] theorem coastEdge_ticks (s : State) (b : State) : (coastEdge b s).ticks = s.ticks := by
  unfold coastEdge
  repeat' split
  all_goals simp

@[simp] theorem coastEdge_conv (s : State) (b : State) : (coastEdge b s).conv = s.conv := by
  unfold coastEdge
  repeat' split
  all_goals simp

@[simp] theorem coastEdge_spot (s : State) (b : State) : (coastEdge b s).spot = s.spot := by
  unfold coastEdge
  repeat' split
  all_goals simp

@[simp] theorem coastEdge_vs (s : State) (b : State) : (coastEdge b s).vs = s.vs := by
  unfold coastEdge
  repeat' split
  all_goals simp

@[simp] theorem coastEdge_lowSupply (s : State) (b : State) : (coastEdge b s).lowSupply = s.lowSupply := by
  unfold coastEdge
  repeat' split
  all_goals simp

@[simp] theorem coastEdge_circuits (s : State) (b : State) : (coastEdge b s).circuits = s.circuits := by
  unfold coastEdge
  repeat' split
  all_goals simp

@[simp] theorem coastEdge_actedEpoch (s : State) (b : State) : (coastEdge b s).actedEpoch = s.actedEpoch := by
  unfold coastEdge
  repeat' split
  all_goals simp

@[simp] theorem coastEdge_ring (s : State) (b : State) : (coastEdge b s).ring = s.ring := by
  unfold coastEdge
  repeat' split
  all_goals simp

@[simp] theorem coastEdge_cmd (s : State) (b : State) : (coastEdge b s).cmd = s.cmd := by
  unfold coastEdge
  repeat' split
  all_goals simp

@[simp] theorem coastEdge_intent (s : State) (b : State) : (coastEdge b s).intent = s.intent := by
  unfold coastEdge
  repeat' split
  all_goals simp

@[simp] theorem coastEdge_source (s : State) (b : State) : (coastEdge b s).source = s.source := by
  unfold coastEdge
  repeat' split
  all_goals simp

@[simp] theorem coastEdge_headClashAt (s : State) (b : State) : (coastEdge b s).headClashAt = s.headClashAt := by
  unfold coastEdge
  repeat' split
  all_goals simp

@[simp] theorem coastEdge_link (s : State) (b : State) : (coastEdge b s).link = s.link := by
  unfold coastEdge
  repeat' split
  all_goals simp

@[simp] theorem coastEdge_tell (s : State) (b : State) : (coastEdge b s).tell = s.tell := by
  unfold coastEdge
  repeat' split
  all_goals simp

@[simp] theorem coastEdge_rank (s : State) (b : State) : (coastEdge b s).rank = s.rank := by
  unfold coastEdge
  repeat' split
  all_goals simp

@[simp] theorem coastEdge_rear (s : State) (b : State) : (coastEdge b s).rear = s.rear := by
  unfold coastEdge
  repeat' split
  all_goals simp

@[simp] theorem coastEdge_roster (s : State) (b : State) : (coastEdge b s).roster = s.roster := by
  unfold coastEdge
  repeat' split
  all_goals simp

@[simp] theorem coastEdge_balance (s : State) (b : State) : (coastEdge b s).balance = s.balance := by
  unfold coastEdge
  repeat' split
  all_goals simp

@[simp] theorem coastEdge_faults (s : State) (b : State) : (coastEdge b s).faults = s.faults := by
  unfold coastEdge
  repeat' split
  all_goals simp

@[simp] theorem coastEdge_warn (s : State) (b : State) : (coastEdge b s).warn = s.warn := by
  unfold coastEdge
  repeat' split
  all_goals simp

@[simp] theorem coastEdge_trainSeconds (s : State) (b : State) : (coastEdge b s).trainSeconds = s.trainSeconds := by
  unfold coastEdge
  repeat' split
  all_goals simp

@[simp] theorem coastEdge_secondAt (s : State) (b : State) : (coastEdge b s).secondAt = s.secondAt := by
  unfold coastEdge
  repeat' split
  all_goals simp

@[simp] theorem coastEdge_learner (s : State) (b : State) : (coastEdge b s).learner = s.learner := by
  unfold coastEdge
  repeat' split
  all_goals simp

@[simp] theorem coastEdge_query (s : State) (b : State) : (coastEdge b s).query = s.query := by
  unfold coastEdge
  repeat' split
  all_goals simp

@[simp] theorem coastEdge_port (s : State) (b : State) : (coastEdge b s).port = s.port := by
  unfold coastEdge
  repeat' split
  all_goals simp

/-! ## arbitrate -/

@[simp] theorem arbitrate_pending (s : State) : (s.arbitrate).pending = s.pending := by
  unfold State.arbitrate
  repeat' split
  all_goals rfl

@[simp] theorem arbitrate_free (s : State) : (s.arbitrate).free = s.free := by
  unfold State.arbitrate
  repeat' split
  all_goals rfl

@[simp] theorem arbitrate_pins (s : State) : (s.arbitrate).pins = s.pins := by
  unfold State.arbitrate
  repeat' split
  all_goals rfl

@[simp] theorem arbitrate_store (s : State) : (s.arbitrate).store = s.store := by
  unfold State.arbitrate
  repeat' split
  all_goals rfl

@[simp] theorem arbitrate_writes (s : State) : (s.arbitrate).writes = s.writes := by
  unfold State.arbitrate
  repeat' split
  all_goals rfl

@[simp] theorem arbitrate_cfg (s : State) : (s.arbitrate).cfg = s.cfg := by
  unfold State.arbitrate
  repeat' split
  all_goals rfl

@[simp] theorem arbitrate_ticks (s : State) : (s.arbitrate).ticks = s.ticks := by
  unfold State.arbitrate
  repeat' split
  all_goals rfl

@[simp] theorem arbitrate_spot (s : State) : (s.arbitrate).spot = s.spot := by
  unfold State.arbitrate
  repeat' split
  all_goals rfl

@[simp] theorem arbitrate_vs (s : State) : (s.arbitrate).vs = s.vs := by
  unfold State.arbitrate
  repeat' split
  all_goals rfl

@[simp] theorem arbitrate_lowSupply (s : State) : (s.arbitrate).lowSupply = s.lowSupply := by
  unfold State.arbitrate
  repeat' split
  all_goals rfl

@[simp] theorem arbitrate_circuits (s : State) : (s.arbitrate).circuits = s.circuits := by
  unfold State.arbitrate
  repeat' split
  all_goals rfl

@[simp] theorem arbitrate_actedEpoch (s : State) : (s.arbitrate).actedEpoch = s.actedEpoch := by
  unfold State.arbitrate
  repeat' split
  all_goals rfl

@[simp] theorem arbitrate_ring (s : State) : (s.arbitrate).ring = s.ring := by
  unfold State.arbitrate
  repeat' split
  all_goals rfl

@[simp] theorem arbitrate_cmd (s : State) : (s.arbitrate).cmd = s.cmd := by
  unfold State.arbitrate
  repeat' split
  all_goals rfl

@[simp] theorem arbitrate_intent (s : State) : (s.arbitrate).intent = s.intent := by
  unfold State.arbitrate
  repeat' split
  all_goals rfl

@[simp] theorem arbitrate_source (s : State) : (s.arbitrate).source = s.source := by
  unfold State.arbitrate
  repeat' split
  all_goals rfl

@[simp] theorem arbitrate_headClashAt (s : State) : (s.arbitrate).headClashAt = s.headClashAt := by
  unfold State.arbitrate
  repeat' split
  all_goals rfl

@[simp] theorem arbitrate_link (s : State) : (s.arbitrate).link = s.link := by
  unfold State.arbitrate
  repeat' split
  all_goals rfl

@[simp] theorem arbitrate_tell (s : State) : (s.arbitrate).tell = s.tell := by
  unfold State.arbitrate
  repeat' split
  all_goals rfl

@[simp] theorem arbitrate_rank (s : State) : (s.arbitrate).rank = s.rank := by
  unfold State.arbitrate
  repeat' split
  all_goals rfl

@[simp] theorem arbitrate_rear (s : State) : (s.arbitrate).rear = s.rear := by
  unfold State.arbitrate
  repeat' split
  all_goals rfl

@[simp] theorem arbitrate_roster (s : State) : (s.arbitrate).roster = s.roster := by
  unfold State.arbitrate
  repeat' split
  all_goals rfl

@[simp] theorem arbitrate_balance (s : State) : (s.arbitrate).balance = s.balance := by
  unfold State.arbitrate
  repeat' split
  all_goals rfl

@[simp] theorem arbitrate_faults (s : State) : (s.arbitrate).faults = s.faults := by
  unfold State.arbitrate
  repeat' split
  all_goals rfl

@[simp] theorem arbitrate_warn (s : State) : (s.arbitrate).warn = s.warn := by
  unfold State.arbitrate
  repeat' split
  all_goals rfl

@[simp] theorem arbitrate_events (s : State) : (s.arbitrate).events = s.events := by
  unfold State.arbitrate
  repeat' split
  all_goals rfl

@[simp] theorem arbitrate_trainSeconds (s : State) : (s.arbitrate).trainSeconds = s.trainSeconds := by
  unfold State.arbitrate
  repeat' split
  all_goals rfl

@[simp] theorem arbitrate_secondAt (s : State) : (s.arbitrate).secondAt = s.secondAt := by
  unfold State.arbitrate
  repeat' split
  all_goals rfl

@[simp] theorem arbitrate_learner (s : State) : (s.arbitrate).learner = s.learner := by
  unfold State.arbitrate
  repeat' split
  all_goals rfl

@[simp] theorem arbitrate_query (s : State) : (s.arbitrate).query = s.query := by
  unfold State.arbitrate
  repeat' split
  all_goals rfl

@[simp] theorem arbitrate_port (s : State) : (s.arbitrate).port = s.port := by
  unfold State.arbitrate
  repeat' split
  all_goals rfl

@[simp] theorem arbitrate_flags (s : State) : (s.arbitrate).flags = s.flags := by
  unfold State.arbitrate
  repeat' split
  all_goals rfl

/-! ## release -/

@[simp] theorem release_pending (s : State) : (s.release).pending = s.pending := by
  simp [State.release]

@[simp] theorem release_free (s : State) : (s.release).free = s.free := by
  simp [State.release]

@[simp] theorem release_pins (s : State) : (s.release).pins = s.pins := by
  simp [State.release]

@[simp] theorem release_store (s : State) : (s.release).store = s.store := by
  simp [State.release]

@[simp] theorem release_writes (s : State) : (s.release).writes = s.writes := by
  simp [State.release]

@[simp] theorem release_cfg (s : State) : (s.release).cfg = s.cfg := by
  simp [State.release]

@[simp] theorem release_ticks (s : State) : (s.release).ticks = s.ticks := by
  simp [State.release]

@[simp] theorem release_spot (s : State) : (s.release).spot = s.spot := by
  simp [State.release]

@[simp] theorem release_vs (s : State) : (s.release).vs = s.vs := by
  simp [State.release]

@[simp] theorem release_lowSupply (s : State) : (s.release).lowSupply = s.lowSupply := by
  simp [State.release]

@[simp] theorem release_circuits (s : State) : (s.release).circuits = s.circuits := by
  simp [State.release]

@[simp] theorem release_actedEpoch (s : State) : (s.release).actedEpoch = s.actedEpoch := by
  simp [State.release]

@[simp] theorem release_ring (s : State) : (s.release).ring = s.ring := by
  simp [State.release]

@[simp] theorem release_cmd (s : State) : (s.release).cmd = s.cmd := by
  simp [State.release]

@[simp] theorem release_intent (s : State) : (s.release).intent = s.intent := by
  simp [State.release]

@[simp] theorem release_source (s : State) : (s.release).source = s.source := by
  simp [State.release]

@[simp] theorem release_headClashAt (s : State) : (s.release).headClashAt = s.headClashAt := by
  simp [State.release]

@[simp] theorem release_link (s : State) : (s.release).link = s.link := by
  simp [State.release]

@[simp] theorem release_tell (s : State) : (s.release).tell = s.tell := by
  simp [State.release]

@[simp] theorem release_rank (s : State) : (s.release).rank = s.rank := by
  simp [State.release]

@[simp] theorem release_rear (s : State) : (s.release).rear = s.rear := by
  simp [State.release]

@[simp] theorem release_roster (s : State) : (s.release).roster = s.roster := by
  simp [State.release]

@[simp] theorem release_balance (s : State) : (s.release).balance = s.balance := by
  simp [State.release]

@[simp] theorem release_faults (s : State) : (s.release).faults = s.faults := by
  simp [State.release]

@[simp] theorem release_warn (s : State) : (s.release).warn = s.warn := by
  simp [State.release]

@[simp] theorem release_events (s : State) : (s.release).events = s.events := by
  simp [State.release]

@[simp] theorem release_trainSeconds (s : State) : (s.release).trainSeconds = s.trainSeconds := by
  simp [State.release]

@[simp] theorem release_secondAt (s : State) : (s.release).secondAt = s.secondAt := by
  simp [State.release]

@[simp] theorem release_learner (s : State) : (s.release).learner = s.learner := by
  simp [State.release]

@[simp] theorem release_query (s : State) : (s.release).query = s.query := by
  simp [State.release]

@[simp] theorem release_port (s : State) : (s.release).port = s.port := by
  simp [State.release]

@[simp] theorem release_flags (s : State) : (s.release).flags = s.flags := by
  simp [State.release]

/-! ## startReading -/

@[simp] theorem startReading_pending (s : State) (t : BitVec 4) (c : Circ) : (s.startReading t c).pending = s.pending := by
  simp [State.startReading]

@[simp] theorem startReading_free (s : State) (t : BitVec 4) (c : Circ) : (s.startReading t c).free = s.free := by
  simp [State.startReading]

@[simp] theorem startReading_pins (s : State) (t : BitVec 4) (c : Circ) : (s.startReading t c).pins = s.pins := by
  simp [State.startReading]

@[simp] theorem startReading_store (s : State) (t : BitVec 4) (c : Circ) : (s.startReading t c).store = s.store := by
  simp [State.startReading]

@[simp] theorem startReading_writes (s : State) (t : BitVec 4) (c : Circ) : (s.startReading t c).writes = s.writes := by
  simp [State.startReading]

@[simp] theorem startReading_cfg (s : State) (t : BitVec 4) (c : Circ) : (s.startReading t c).cfg = s.cfg := by
  simp [State.startReading]

@[simp] theorem startReading_ticks (s : State) (t : BitVec 4) (c : Circ) : (s.startReading t c).ticks = s.ticks := by
  simp [State.startReading]

@[simp] theorem startReading_vs (s : State) (t : BitVec 4) (c : Circ) : (s.startReading t c).vs = s.vs := by
  simp [State.startReading]

@[simp] theorem startReading_lowSupply (s : State) (t : BitVec 4) (c : Circ) : (s.startReading t c).lowSupply = s.lowSupply := by
  simp [State.startReading]

@[simp] theorem startReading_circuits (s : State) (t : BitVec 4) (c : Circ) : (s.startReading t c).circuits = s.circuits := by
  simp [State.startReading]

@[simp] theorem startReading_actedEpoch (s : State) (t : BitVec 4) (c : Circ) : (s.startReading t c).actedEpoch = s.actedEpoch := by
  simp [State.startReading]

@[simp] theorem startReading_ring (s : State) (t : BitVec 4) (c : Circ) : (s.startReading t c).ring = s.ring := by
  simp [State.startReading]

@[simp] theorem startReading_cmd (s : State) (t : BitVec 4) (c : Circ) : (s.startReading t c).cmd = s.cmd := by
  simp [State.startReading]

@[simp] theorem startReading_intent (s : State) (t : BitVec 4) (c : Circ) : (s.startReading t c).intent = s.intent := by
  simp [State.startReading]

@[simp] theorem startReading_source (s : State) (t : BitVec 4) (c : Circ) : (s.startReading t c).source = s.source := by
  simp [State.startReading]

@[simp] theorem startReading_headClashAt (s : State) (t : BitVec 4) (c : Circ) : (s.startReading t c).headClashAt = s.headClashAt := by
  simp [State.startReading]

@[simp] theorem startReading_link (s : State) (t : BitVec 4) (c : Circ) : (s.startReading t c).link = s.link := by
  simp [State.startReading]

@[simp] theorem startReading_tell (s : State) (t : BitVec 4) (c : Circ) : (s.startReading t c).tell = s.tell := by
  simp [State.startReading]

@[simp] theorem startReading_rank (s : State) (t : BitVec 4) (c : Circ) : (s.startReading t c).rank = s.rank := by
  simp [State.startReading]

@[simp] theorem startReading_rear (s : State) (t : BitVec 4) (c : Circ) : (s.startReading t c).rear = s.rear := by
  simp [State.startReading]

@[simp] theorem startReading_roster (s : State) (t : BitVec 4) (c : Circ) : (s.startReading t c).roster = s.roster := by
  simp [State.startReading]

@[simp] theorem startReading_balance (s : State) (t : BitVec 4) (c : Circ) : (s.startReading t c).balance = s.balance := by
  simp [State.startReading]

@[simp] theorem startReading_faults (s : State) (t : BitVec 4) (c : Circ) : (s.startReading t c).faults = s.faults := by
  simp [State.startReading]

@[simp] theorem startReading_warn (s : State) (t : BitVec 4) (c : Circ) : (s.startReading t c).warn = s.warn := by
  simp [State.startReading]

@[simp] theorem startReading_events (s : State) (t : BitVec 4) (c : Circ) : (s.startReading t c).events = s.events := by
  simp [State.startReading]

@[simp] theorem startReading_trainSeconds (s : State) (t : BitVec 4) (c : Circ) : (s.startReading t c).trainSeconds = s.trainSeconds := by
  simp [State.startReading]

@[simp] theorem startReading_secondAt (s : State) (t : BitVec 4) (c : Circ) : (s.startReading t c).secondAt = s.secondAt := by
  simp [State.startReading]

@[simp] theorem startReading_learner (s : State) (t : BitVec 4) (c : Circ) : (s.startReading t c).learner = s.learner := by
  simp [State.startReading]

@[simp] theorem startReading_query (s : State) (t : BitVec 4) (c : Circ) : (s.startReading t c).query = s.query := by
  simp [State.startReading]

@[simp] theorem startReading_port (s : State) (t : BitVec 4) (c : Circ) : (s.startReading t c).port = s.port := by
  simp [State.startReading]

@[simp] theorem startReading_flags (s : State) (t : BitVec 4) (c : Circ) : (s.startReading t c).flags = s.flags := by
  simp [State.startReading]

/-! ## addRing -/

@[simp] theorem addRing_pending (s : State) (e : RingEntry) : (s.addRing e).pending = s.pending := rfl

@[simp] theorem addRing_free (s : State) (e : RingEntry) : (s.addRing e).free = s.free := rfl

@[simp] theorem addRing_pins (s : State) (e : RingEntry) : (s.addRing e).pins = s.pins := rfl

@[simp] theorem addRing_store (s : State) (e : RingEntry) : (s.addRing e).store = s.store := rfl

@[simp] theorem addRing_writes (s : State) (e : RingEntry) : (s.addRing e).writes = s.writes := rfl

@[simp] theorem addRing_cfg (s : State) (e : RingEntry) : (s.addRing e).cfg = s.cfg := rfl

@[simp] theorem addRing_ticks (s : State) (e : RingEntry) : (s.addRing e).ticks = s.ticks := rfl

@[simp] theorem addRing_conv (s : State) (e : RingEntry) : (s.addRing e).conv = s.conv := rfl

@[simp] theorem addRing_spot (s : State) (e : RingEntry) : (s.addRing e).spot = s.spot := rfl

@[simp] theorem addRing_vs (s : State) (e : RingEntry) : (s.addRing e).vs = s.vs := rfl

@[simp] theorem addRing_lowSupply (s : State) (e : RingEntry) : (s.addRing e).lowSupply = s.lowSupply := rfl

@[simp] theorem addRing_actedEpoch (s : State) (e : RingEntry) : (s.addRing e).actedEpoch = s.actedEpoch := rfl

@[simp] theorem addRing_cmd (s : State) (e : RingEntry) : (s.addRing e).cmd = s.cmd := rfl

@[simp] theorem addRing_intent (s : State) (e : RingEntry) : (s.addRing e).intent = s.intent := rfl

@[simp] theorem addRing_source (s : State) (e : RingEntry) : (s.addRing e).source = s.source := rfl

@[simp] theorem addRing_headClashAt (s : State) (e : RingEntry) : (s.addRing e).headClashAt = s.headClashAt := rfl

@[simp] theorem addRing_link (s : State) (e : RingEntry) : (s.addRing e).link = s.link := rfl

@[simp] theorem addRing_tell (s : State) (e : RingEntry) : (s.addRing e).tell = s.tell := rfl

@[simp] theorem addRing_rank (s : State) (e : RingEntry) : (s.addRing e).rank = s.rank := rfl

@[simp] theorem addRing_rear (s : State) (e : RingEntry) : (s.addRing e).rear = s.rear := rfl

@[simp] theorem addRing_roster (s : State) (e : RingEntry) : (s.addRing e).roster = s.roster := rfl

@[simp] theorem addRing_balance (s : State) (e : RingEntry) : (s.addRing e).balance = s.balance := rfl

@[simp] theorem addRing_faults (s : State) (e : RingEntry) : (s.addRing e).faults = s.faults := rfl

@[simp] theorem addRing_warn (s : State) (e : RingEntry) : (s.addRing e).warn = s.warn := rfl

@[simp] theorem addRing_events (s : State) (e : RingEntry) : (s.addRing e).events = s.events := rfl

@[simp] theorem addRing_trainSeconds (s : State) (e : RingEntry) : (s.addRing e).trainSeconds = s.trainSeconds := rfl

@[simp] theorem addRing_secondAt (s : State) (e : RingEntry) : (s.addRing e).secondAt = s.secondAt := rfl

@[simp] theorem addRing_learner (s : State) (e : RingEntry) : (s.addRing e).learner = s.learner := rfl

@[simp] theorem addRing_query (s : State) (e : RingEntry) : (s.addRing e).query = s.query := rfl

@[simp] theorem addRing_port (s : State) (e : RingEntry) : (s.addRing e).port = s.port := rfl

@[simp] theorem addRing_flags (s : State) (e : RingEntry) : (s.addRing e).flags = s.flags := rfl

/-! ## epochChange -/

@[simp] theorem epochChange_pending (s : State) : (s.epochChange).pending = s.pending := by
  simp [State.epochChange]

@[simp] theorem epochChange_free (s : State) : (s.epochChange).free = s.free := by
  simp [State.epochChange]

@[simp] theorem epochChange_pins (s : State) : (s.epochChange).pins = s.pins := by
  simp [State.epochChange]

@[simp] theorem epochChange_store (s : State) : (s.epochChange).store = s.store := by
  simp [State.epochChange]

@[simp] theorem epochChange_writes (s : State) : (s.epochChange).writes = s.writes := by
  simp [State.epochChange]

@[simp] theorem epochChange_cfg (s : State) : (s.epochChange).cfg = s.cfg := by
  simp [State.epochChange]

@[simp] theorem epochChange_ticks (s : State) : (s.epochChange).ticks = s.ticks := by
  simp [State.epochChange]

@[simp] theorem epochChange_conv (s : State) : (s.epochChange).conv = s.conv := by
  simp [State.epochChange]

@[simp] theorem epochChange_spot (s : State) : (s.epochChange).spot = s.spot := by
  simp [State.epochChange]

@[simp] theorem epochChange_vs (s : State) : (s.epochChange).vs = s.vs := by
  simp [State.epochChange]

@[simp] theorem epochChange_lowSupply (s : State) : (s.epochChange).lowSupply = s.lowSupply := by
  simp [State.epochChange]

@[simp] theorem epochChange_actedEpoch (s : State) : (s.epochChange).actedEpoch = s.actedEpoch := by
  simp [State.epochChange]

@[simp] theorem epochChange_cmd (s : State) : (s.epochChange).cmd = s.cmd := by
  simp [State.epochChange]

@[simp] theorem epochChange_intent (s : State) : (s.epochChange).intent = s.intent := by
  simp [State.epochChange]

@[simp] theorem epochChange_headClashAt (s : State) : (s.epochChange).headClashAt = s.headClashAt := by
  simp [State.epochChange]

@[simp] theorem epochChange_tell (s : State) : (s.epochChange).tell = s.tell := by
  simp [State.epochChange]

@[simp] theorem epochChange_rank (s : State) : (s.epochChange).rank = s.rank := by
  simp [State.epochChange]

@[simp] theorem epochChange_rear (s : State) : (s.epochChange).rear = s.rear := by
  simp [State.epochChange]

@[simp] theorem epochChange_roster (s : State) : (s.epochChange).roster = s.roster := by
  simp [State.epochChange]

@[simp] theorem epochChange_balance (s : State) : (s.epochChange).balance = s.balance := by
  simp [State.epochChange]

@[simp] theorem epochChange_faults (s : State) : (s.epochChange).faults = s.faults := by
  simp [State.epochChange]

@[simp] theorem epochChange_warn (s : State) : (s.epochChange).warn = s.warn := by
  simp [State.epochChange]

@[simp] theorem epochChange_events (s : State) : (s.epochChange).events = s.events := by
  simp [State.epochChange]

@[simp] theorem epochChange_trainSeconds (s : State) : (s.epochChange).trainSeconds = s.trainSeconds := by
  simp [State.epochChange]

@[simp] theorem epochChange_secondAt (s : State) : (s.epochChange).secondAt = s.secondAt := by
  simp [State.epochChange]

@[simp] theorem epochChange_learner (s : State) : (s.epochChange).learner = s.learner := by
  simp [State.epochChange]

@[simp] theorem epochChange_query (s : State) : (s.epochChange).query = s.query := by
  simp [State.epochChange]

@[simp] theorem epochChange_port (s : State) : (s.epochChange).port = s.port := by
  simp [State.epochChange]

@[simp] theorem epochChange_flags (s : State) : (s.epochChange).flags = s.flags := by
  simp [State.epochChange]

/-! ## reevaluatePeriod -/

@[simp] theorem reevaluatePeriod_pending (s : State) (b : State) : (reevaluatePeriod b s).pending = s.pending := by
  unfold reevaluatePeriod
  dsimp only
  repeat' split
  all_goals simp

@[simp] theorem reevaluatePeriod_free (s : State) (b : State) : (reevaluatePeriod b s).free = s.free := by
  unfold reevaluatePeriod
  dsimp only
  repeat' split
  all_goals simp

@[simp] theorem reevaluatePeriod_pins (s : State) (b : State) : (reevaluatePeriod b s).pins = s.pins := by
  unfold reevaluatePeriod
  dsimp only
  repeat' split
  all_goals simp

@[simp] theorem reevaluatePeriod_store (s : State) (b : State) : (reevaluatePeriod b s).store = s.store := by
  unfold reevaluatePeriod
  dsimp only
  repeat' split
  all_goals simp

@[simp] theorem reevaluatePeriod_writes (s : State) (b : State) : (reevaluatePeriod b s).writes = s.writes := by
  unfold reevaluatePeriod
  dsimp only
  repeat' split
  all_goals simp

@[simp] theorem reevaluatePeriod_cfg (s : State) (b : State) : (reevaluatePeriod b s).cfg = s.cfg := by
  unfold reevaluatePeriod
  dsimp only
  repeat' split
  all_goals simp

@[simp] theorem reevaluatePeriod_ticks (s : State) (b : State) : (reevaluatePeriod b s).ticks = s.ticks := by
  unfold reevaluatePeriod
  dsimp only
  repeat' split
  all_goals simp

@[simp] theorem reevaluatePeriod_conv (s : State) (b : State) : (reevaluatePeriod b s).conv = s.conv := by
  unfold reevaluatePeriod
  dsimp only
  repeat' split
  all_goals simp

@[simp] theorem reevaluatePeriod_spot (s : State) (b : State) : (reevaluatePeriod b s).spot = s.spot := by
  unfold reevaluatePeriod
  dsimp only
  repeat' split
  all_goals simp

@[simp] theorem reevaluatePeriod_vs (s : State) (b : State) : (reevaluatePeriod b s).vs = s.vs := by
  unfold reevaluatePeriod
  dsimp only
  repeat' split
  all_goals simp

@[simp] theorem reevaluatePeriod_lowSupply (s : State) (b : State) : (reevaluatePeriod b s).lowSupply = s.lowSupply := by
  unfold reevaluatePeriod
  dsimp only
  repeat' split
  all_goals simp

@[simp] theorem reevaluatePeriod_actedEpoch (s : State) (b : State) : (reevaluatePeriod b s).actedEpoch = s.actedEpoch := by
  unfold reevaluatePeriod
  dsimp only
  repeat' split
  all_goals simp

@[simp] theorem reevaluatePeriod_cmd (s : State) (b : State) : (reevaluatePeriod b s).cmd = s.cmd := by
  unfold reevaluatePeriod
  dsimp only
  repeat' split
  all_goals simp

@[simp] theorem reevaluatePeriod_intent (s : State) (b : State) : (reevaluatePeriod b s).intent = s.intent := by
  unfold reevaluatePeriod
  dsimp only
  repeat' split
  all_goals simp

@[simp] theorem reevaluatePeriod_headClashAt (s : State) (b : State) : (reevaluatePeriod b s).headClashAt = s.headClashAt := by
  unfold reevaluatePeriod
  dsimp only
  repeat' split
  all_goals simp

@[simp] theorem reevaluatePeriod_tell (s : State) (b : State) : (reevaluatePeriod b s).tell = s.tell := by
  unfold reevaluatePeriod
  dsimp only
  repeat' split
  all_goals simp

@[simp] theorem reevaluatePeriod_rank (s : State) (b : State) : (reevaluatePeriod b s).rank = s.rank := by
  unfold reevaluatePeriod
  dsimp only
  repeat' split
  all_goals simp

@[simp] theorem reevaluatePeriod_rear (s : State) (b : State) : (reevaluatePeriod b s).rear = s.rear := by
  unfold reevaluatePeriod
  dsimp only
  repeat' split
  all_goals simp

@[simp] theorem reevaluatePeriod_roster (s : State) (b : State) : (reevaluatePeriod b s).roster = s.roster := by
  unfold reevaluatePeriod
  dsimp only
  repeat' split
  all_goals simp

@[simp] theorem reevaluatePeriod_balance (s : State) (b : State) : (reevaluatePeriod b s).balance = s.balance := by
  unfold reevaluatePeriod
  dsimp only
  repeat' split
  all_goals simp

@[simp] theorem reevaluatePeriod_faults (s : State) (b : State) : (reevaluatePeriod b s).faults = s.faults := by
  unfold reevaluatePeriod
  dsimp only
  repeat' split
  all_goals simp

@[simp] theorem reevaluatePeriod_warn (s : State) (b : State) : (reevaluatePeriod b s).warn = s.warn := by
  unfold reevaluatePeriod
  dsimp only
  repeat' split
  all_goals simp

@[simp] theorem reevaluatePeriod_events (s : State) (b : State) : (reevaluatePeriod b s).events = s.events := by
  unfold reevaluatePeriod
  dsimp only
  repeat' split
  all_goals simp

@[simp] theorem reevaluatePeriod_trainSeconds (s : State) (b : State) : (reevaluatePeriod b s).trainSeconds = s.trainSeconds := by
  unfold reevaluatePeriod
  dsimp only
  repeat' split
  all_goals simp

@[simp] theorem reevaluatePeriod_secondAt (s : State) (b : State) : (reevaluatePeriod b s).secondAt = s.secondAt := by
  unfold reevaluatePeriod
  dsimp only
  repeat' split
  all_goals simp

@[simp] theorem reevaluatePeriod_learner (s : State) (b : State) : (reevaluatePeriod b s).learner = s.learner := by
  unfold reevaluatePeriod
  dsimp only
  repeat' split
  all_goals simp

@[simp] theorem reevaluatePeriod_query (s : State) (b : State) : (reevaluatePeriod b s).query = s.query := by
  unfold reevaluatePeriod
  dsimp only
  repeat' split
  all_goals simp

@[simp] theorem reevaluatePeriod_port (s : State) (b : State) : (reevaluatePeriod b s).port = s.port := by
  unfold reevaluatePeriod
  dsimp only
  repeat' split
  all_goals simp

@[simp] theorem reevaluatePeriod_flags (s : State) (b : State) : (reevaluatePeriod b s).flags = s.flags := by
  unfold reevaluatePeriod
  dsimp only
  repeat' split
  all_goals simp

/-! ## mapEntries -/

@[simp] theorem mapEntries_pending (s : State) (g : Entry → Entry) : (s.mapEntries g).pending = s.pending := rfl

@[simp] theorem mapEntries_free (s : State) (g : Entry → Entry) : (s.mapEntries g).free = s.free := rfl

@[simp] theorem mapEntries_pins (s : State) (g : Entry → Entry) : (s.mapEntries g).pins = s.pins := rfl

@[simp] theorem mapEntries_store (s : State) (g : Entry → Entry) : (s.mapEntries g).store = s.store := rfl

@[simp] theorem mapEntries_writes (s : State) (g : Entry → Entry) : (s.mapEntries g).writes = s.writes := rfl

@[simp] theorem mapEntries_cfg (s : State) (g : Entry → Entry) : (s.mapEntries g).cfg = s.cfg := rfl

@[simp] theorem mapEntries_ticks (s : State) (g : Entry → Entry) : (s.mapEntries g).ticks = s.ticks := rfl

@[simp] theorem mapEntries_conv (s : State) (g : Entry → Entry) : (s.mapEntries g).conv = s.conv := rfl

@[simp] theorem mapEntries_spot (s : State) (g : Entry → Entry) : (s.mapEntries g).spot = s.spot := rfl

@[simp] theorem mapEntries_vs (s : State) (g : Entry → Entry) : (s.mapEntries g).vs = s.vs := rfl

@[simp] theorem mapEntries_lowSupply (s : State) (g : Entry → Entry) : (s.mapEntries g).lowSupply = s.lowSupply := rfl

@[simp] theorem mapEntries_circuits (s : State) (g : Entry → Entry) : (s.mapEntries g).circuits = s.circuits := rfl

@[simp] theorem mapEntries_actedEpoch (s : State) (g : Entry → Entry) : (s.mapEntries g).actedEpoch = s.actedEpoch := rfl

@[simp] theorem mapEntries_ring (s : State) (g : Entry → Entry) : (s.mapEntries g).ring = s.ring := rfl

@[simp] theorem mapEntries_cmd (s : State) (g : Entry → Entry) : (s.mapEntries g).cmd = s.cmd := rfl

@[simp] theorem mapEntries_intent (s : State) (g : Entry → Entry) : (s.mapEntries g).intent = s.intent := rfl

@[simp] theorem mapEntries_source (s : State) (g : Entry → Entry) : (s.mapEntries g).source = s.source := rfl

@[simp] theorem mapEntries_headClashAt (s : State) (g : Entry → Entry) : (s.mapEntries g).headClashAt = s.headClashAt := rfl

@[simp] theorem mapEntries_link (s : State) (g : Entry → Entry) : (s.mapEntries g).link = s.link := rfl

@[simp] theorem mapEntries_tell (s : State) (g : Entry → Entry) : (s.mapEntries g).tell = s.tell := rfl

@[simp] theorem mapEntries_rank (s : State) (g : Entry → Entry) : (s.mapEntries g).rank = s.rank := rfl

@[simp] theorem mapEntries_rear (s : State) (g : Entry → Entry) : (s.mapEntries g).rear = s.rear := rfl

@[simp] theorem mapEntries_roster (s : State) (g : Entry → Entry) : (s.mapEntries g).roster = s.roster := rfl

@[simp] theorem mapEntries_balance (s : State) (g : Entry → Entry) : (s.mapEntries g).balance = s.balance := rfl

@[simp] theorem mapEntries_warn (s : State) (g : Entry → Entry) : (s.mapEntries g).warn = s.warn := rfl

@[simp] theorem mapEntries_events (s : State) (g : Entry → Entry) : (s.mapEntries g).events = s.events := rfl

@[simp] theorem mapEntries_trainSeconds (s : State) (g : Entry → Entry) : (s.mapEntries g).trainSeconds = s.trainSeconds := rfl

@[simp] theorem mapEntries_secondAt (s : State) (g : Entry → Entry) : (s.mapEntries g).secondAt = s.secondAt := rfl

@[simp] theorem mapEntries_learner (s : State) (g : Entry → Entry) : (s.mapEntries g).learner = s.learner := rfl

@[simp] theorem mapEntries_query (s : State) (g : Entry → Entry) : (s.mapEntries g).query = s.query := rfl

@[simp] theorem mapEntries_port (s : State) (g : Entry → Entry) : (s.mapEntries g).port = s.port := rfl

@[simp] theorem mapEntries_flags (s : State) (g : Entry → Entry) : (s.mapEntries g).flags = s.flags := rfl

/-! ## mapEntry -/

@[simp] theorem mapEntry_pending (s : State) (k : Key) (g : Entry → Entry) : (s.mapEntry k g).pending = s.pending := rfl

@[simp] theorem mapEntry_free (s : State) (k : Key) (g : Entry → Entry) : (s.mapEntry k g).free = s.free := rfl

@[simp] theorem mapEntry_pins (s : State) (k : Key) (g : Entry → Entry) : (s.mapEntry k g).pins = s.pins := rfl

@[simp] theorem mapEntry_store (s : State) (k : Key) (g : Entry → Entry) : (s.mapEntry k g).store = s.store := rfl

@[simp] theorem mapEntry_writes (s : State) (k : Key) (g : Entry → Entry) : (s.mapEntry k g).writes = s.writes := rfl

@[simp] theorem mapEntry_cfg (s : State) (k : Key) (g : Entry → Entry) : (s.mapEntry k g).cfg = s.cfg := rfl

@[simp] theorem mapEntry_ticks (s : State) (k : Key) (g : Entry → Entry) : (s.mapEntry k g).ticks = s.ticks := rfl

@[simp] theorem mapEntry_conv (s : State) (k : Key) (g : Entry → Entry) : (s.mapEntry k g).conv = s.conv := rfl

@[simp] theorem mapEntry_spot (s : State) (k : Key) (g : Entry → Entry) : (s.mapEntry k g).spot = s.spot := rfl

@[simp] theorem mapEntry_vs (s : State) (k : Key) (g : Entry → Entry) : (s.mapEntry k g).vs = s.vs := rfl

@[simp] theorem mapEntry_lowSupply (s : State) (k : Key) (g : Entry → Entry) : (s.mapEntry k g).lowSupply = s.lowSupply := rfl

@[simp] theorem mapEntry_circuits (s : State) (k : Key) (g : Entry → Entry) : (s.mapEntry k g).circuits = s.circuits := rfl

@[simp] theorem mapEntry_actedEpoch (s : State) (k : Key) (g : Entry → Entry) : (s.mapEntry k g).actedEpoch = s.actedEpoch := rfl

@[simp] theorem mapEntry_ring (s : State) (k : Key) (g : Entry → Entry) : (s.mapEntry k g).ring = s.ring := rfl

@[simp] theorem mapEntry_cmd (s : State) (k : Key) (g : Entry → Entry) : (s.mapEntry k g).cmd = s.cmd := rfl

@[simp] theorem mapEntry_intent (s : State) (k : Key) (g : Entry → Entry) : (s.mapEntry k g).intent = s.intent := rfl

@[simp] theorem mapEntry_source (s : State) (k : Key) (g : Entry → Entry) : (s.mapEntry k g).source = s.source := rfl

@[simp] theorem mapEntry_headClashAt (s : State) (k : Key) (g : Entry → Entry) : (s.mapEntry k g).headClashAt = s.headClashAt := rfl

@[simp] theorem mapEntry_link (s : State) (k : Key) (g : Entry → Entry) : (s.mapEntry k g).link = s.link := rfl

@[simp] theorem mapEntry_tell (s : State) (k : Key) (g : Entry → Entry) : (s.mapEntry k g).tell = s.tell := rfl

@[simp] theorem mapEntry_rank (s : State) (k : Key) (g : Entry → Entry) : (s.mapEntry k g).rank = s.rank := rfl

@[simp] theorem mapEntry_rear (s : State) (k : Key) (g : Entry → Entry) : (s.mapEntry k g).rear = s.rear := rfl

@[simp] theorem mapEntry_roster (s : State) (k : Key) (g : Entry → Entry) : (s.mapEntry k g).roster = s.roster := rfl

@[simp] theorem mapEntry_balance (s : State) (k : Key) (g : Entry → Entry) : (s.mapEntry k g).balance = s.balance := rfl

@[simp] theorem mapEntry_warn (s : State) (k : Key) (g : Entry → Entry) : (s.mapEntry k g).warn = s.warn := rfl

@[simp] theorem mapEntry_events (s : State) (k : Key) (g : Entry → Entry) : (s.mapEntry k g).events = s.events := rfl

@[simp] theorem mapEntry_trainSeconds (s : State) (k : Key) (g : Entry → Entry) : (s.mapEntry k g).trainSeconds = s.trainSeconds := rfl

@[simp] theorem mapEntry_secondAt (s : State) (k : Key) (g : Entry → Entry) : (s.mapEntry k g).secondAt = s.secondAt := rfl

@[simp] theorem mapEntry_learner (s : State) (k : Key) (g : Entry → Entry) : (s.mapEntry k g).learner = s.learner := rfl

@[simp] theorem mapEntry_query (s : State) (k : Key) (g : Entry → Entry) : (s.mapEntry k g).query = s.query := rfl

@[simp] theorem mapEntry_port (s : State) (k : Key) (g : Entry → Entry) : (s.mapEntry k g).port = s.port := rfl

@[simp] theorem mapEntry_flags (s : State) (k : Key) (g : Entry → Entry) : (s.mapEntry k g).flags = s.flags := rfl

/-! ## confirm -/

@[simp] theorem confirm_pending (s : State) (k : Key) (d : Details) (r : Option Rank) : (s.confirm k d r).pending = s.pending := by
  unfold State.confirm State.makeEntry State.append
  repeat' split
  all_goals simp

@[simp] theorem confirm_free (s : State) (k : Key) (d : Details) (r : Option Rank) : (s.confirm k d r).free = s.free := by
  unfold State.confirm State.makeEntry State.append
  repeat' split
  all_goals simp

@[simp] theorem confirm_pins (s : State) (k : Key) (d : Details) (r : Option Rank) : (s.confirm k d r).pins = s.pins := by
  unfold State.confirm State.makeEntry State.append
  repeat' split
  all_goals simp

@[simp] theorem confirm_store (s : State) (k : Key) (d : Details) (r : Option Rank) : (s.confirm k d r).store = s.store := by
  unfold State.confirm State.makeEntry State.append
  repeat' split
  all_goals simp

@[simp] theorem confirm_writes (s : State) (k : Key) (d : Details) (r : Option Rank) : (s.confirm k d r).writes = s.writes := by
  unfold State.confirm State.makeEntry State.append
  repeat' split
  all_goals simp

@[simp] theorem confirm_cfg (s : State) (k : Key) (d : Details) (r : Option Rank) : (s.confirm k d r).cfg = s.cfg := by
  unfold State.confirm State.makeEntry State.append
  repeat' split
  all_goals simp

@[simp] theorem confirm_ticks (s : State) (k : Key) (d : Details) (r : Option Rank) : (s.confirm k d r).ticks = s.ticks := by
  unfold State.confirm State.makeEntry State.append
  repeat' split
  all_goals simp

@[simp] theorem confirm_conv (s : State) (k : Key) (d : Details) (r : Option Rank) : (s.confirm k d r).conv = s.conv := by
  unfold State.confirm State.makeEntry State.append
  repeat' split
  all_goals simp

@[simp] theorem confirm_spot (s : State) (k : Key) (d : Details) (r : Option Rank) : (s.confirm k d r).spot = s.spot := by
  unfold State.confirm State.makeEntry State.append
  repeat' split
  all_goals simp

@[simp] theorem confirm_vs (s : State) (k : Key) (d : Details) (r : Option Rank) : (s.confirm k d r).vs = s.vs := by
  unfold State.confirm State.makeEntry State.append
  repeat' split
  all_goals simp

@[simp] theorem confirm_lowSupply (s : State) (k : Key) (d : Details) (r : Option Rank) : (s.confirm k d r).lowSupply = s.lowSupply := by
  unfold State.confirm State.makeEntry State.append
  repeat' split
  all_goals simp

@[simp] theorem confirm_circuits (s : State) (k : Key) (d : Details) (r : Option Rank) : (s.confirm k d r).circuits = s.circuits := by
  unfold State.confirm State.makeEntry State.append
  repeat' split
  all_goals simp

@[simp] theorem confirm_actedEpoch (s : State) (k : Key) (d : Details) (r : Option Rank) : (s.confirm k d r).actedEpoch = s.actedEpoch := by
  unfold State.confirm State.makeEntry State.append
  repeat' split
  all_goals simp

@[simp] theorem confirm_ring (s : State) (k : Key) (d : Details) (r : Option Rank) : (s.confirm k d r).ring = s.ring := by
  unfold State.confirm State.makeEntry State.append
  repeat' split
  all_goals simp

@[simp] theorem confirm_cmd (s : State) (k : Key) (d : Details) (r : Option Rank) : (s.confirm k d r).cmd = s.cmd := by
  unfold State.confirm State.makeEntry State.append
  repeat' split
  all_goals simp

@[simp] theorem confirm_intent (s : State) (k : Key) (d : Details) (r : Option Rank) : (s.confirm k d r).intent = s.intent := by
  unfold State.confirm State.makeEntry State.append
  repeat' split
  all_goals simp

@[simp] theorem confirm_source (s : State) (k : Key) (d : Details) (r : Option Rank) : (s.confirm k d r).source = s.source := by
  unfold State.confirm State.makeEntry State.append
  repeat' split
  all_goals simp

@[simp] theorem confirm_headClashAt (s : State) (k : Key) (d : Details) (r : Option Rank) : (s.confirm k d r).headClashAt = s.headClashAt := by
  unfold State.confirm State.makeEntry State.append
  repeat' split
  all_goals simp

@[simp] theorem confirm_link (s : State) (k : Key) (d : Details) (r : Option Rank) : (s.confirm k d r).link = s.link := by
  unfold State.confirm State.makeEntry State.append
  repeat' split
  all_goals simp

@[simp] theorem confirm_tell (s : State) (k : Key) (d : Details) (r : Option Rank) : (s.confirm k d r).tell = s.tell := by
  unfold State.confirm State.makeEntry State.append
  repeat' split
  all_goals simp

@[simp] theorem confirm_rank (s : State) (k : Key) (d : Details) (r : Option Rank) : (s.confirm k d r).rank = s.rank := by
  unfold State.confirm State.makeEntry State.append
  repeat' split
  all_goals simp

@[simp] theorem confirm_rear (s : State) (k : Key) (d : Details) (r : Option Rank) : (s.confirm k d r).rear = s.rear := by
  unfold State.confirm State.makeEntry State.append
  repeat' split
  all_goals simp

@[simp] theorem confirm_roster (s : State) (k : Key) (d : Details) (r : Option Rank) : (s.confirm k d r).roster = s.roster := by
  unfold State.confirm State.makeEntry State.append
  repeat' split
  all_goals simp

@[simp] theorem confirm_balance (s : State) (k : Key) (d : Details) (r : Option Rank) : (s.confirm k d r).balance = s.balance := by
  unfold State.confirm State.makeEntry State.append
  repeat' split
  all_goals simp

@[simp] theorem confirm_warn (s : State) (k : Key) (d : Details) (r : Option Rank) : (s.confirm k d r).warn = s.warn := by
  unfold State.confirm State.makeEntry State.append
  repeat' split
  all_goals simp

@[simp] theorem confirm_trainSeconds (s : State) (k : Key) (d : Details) (r : Option Rank) : (s.confirm k d r).trainSeconds = s.trainSeconds := by
  unfold State.confirm State.makeEntry State.append
  repeat' split
  all_goals simp

@[simp] theorem confirm_secondAt (s : State) (k : Key) (d : Details) (r : Option Rank) : (s.confirm k d r).secondAt = s.secondAt := by
  unfold State.confirm State.makeEntry State.append
  repeat' split
  all_goals simp

@[simp] theorem confirm_learner (s : State) (k : Key) (d : Details) (r : Option Rank) : (s.confirm k d r).learner = s.learner := by
  unfold State.confirm State.makeEntry State.append
  repeat' split
  all_goals simp

@[simp] theorem confirm_query (s : State) (k : Key) (d : Details) (r : Option Rank) : (s.confirm k d r).query = s.query := by
  unfold State.confirm State.makeEntry State.append
  repeat' split
  all_goals simp

@[simp] theorem confirm_port (s : State) (k : Key) (d : Details) (r : Option Rank) : (s.confirm k d r).port = s.port := by
  unfold State.confirm State.makeEntry State.append
  repeat' split
  all_goals simp

/-! ## clear -/

@[simp] theorem clear_pending (s : State) (k : Key) : (s.clear k).pending = s.pending := by
  unfold State.clear State.sweep
  repeat' split
  all_goals simp

@[simp] theorem clear_free (s : State) (k : Key) : (s.clear k).free = s.free := by
  unfold State.clear State.sweep
  repeat' split
  all_goals simp

@[simp] theorem clear_pins (s : State) (k : Key) : (s.clear k).pins = s.pins := by
  unfold State.clear State.sweep
  repeat' split
  all_goals simp

@[simp] theorem clear_store (s : State) (k : Key) : (s.clear k).store = s.store := by
  unfold State.clear State.sweep
  repeat' split
  all_goals simp

@[simp] theorem clear_writes (s : State) (k : Key) : (s.clear k).writes = s.writes := by
  unfold State.clear State.sweep
  repeat' split
  all_goals simp

@[simp] theorem clear_cfg (s : State) (k : Key) : (s.clear k).cfg = s.cfg := by
  unfold State.clear State.sweep
  repeat' split
  all_goals simp

@[simp] theorem clear_ticks (s : State) (k : Key) : (s.clear k).ticks = s.ticks := by
  unfold State.clear State.sweep
  repeat' split
  all_goals simp

@[simp] theorem clear_conv (s : State) (k : Key) : (s.clear k).conv = s.conv := by
  unfold State.clear State.sweep
  repeat' split
  all_goals simp

@[simp] theorem clear_spot (s : State) (k : Key) : (s.clear k).spot = s.spot := by
  unfold State.clear State.sweep
  repeat' split
  all_goals simp

@[simp] theorem clear_vs (s : State) (k : Key) : (s.clear k).vs = s.vs := by
  unfold State.clear State.sweep
  repeat' split
  all_goals simp

@[simp] theorem clear_lowSupply (s : State) (k : Key) : (s.clear k).lowSupply = s.lowSupply := by
  unfold State.clear State.sweep
  repeat' split
  all_goals simp

@[simp] theorem clear_circuits (s : State) (k : Key) : (s.clear k).circuits = s.circuits := by
  unfold State.clear State.sweep
  repeat' split
  all_goals simp

@[simp] theorem clear_actedEpoch (s : State) (k : Key) : (s.clear k).actedEpoch = s.actedEpoch := by
  unfold State.clear State.sweep
  repeat' split
  all_goals simp

@[simp] theorem clear_ring (s : State) (k : Key) : (s.clear k).ring = s.ring := by
  unfold State.clear State.sweep
  repeat' split
  all_goals simp

@[simp] theorem clear_cmd (s : State) (k : Key) : (s.clear k).cmd = s.cmd := by
  unfold State.clear State.sweep
  repeat' split
  all_goals simp

@[simp] theorem clear_intent (s : State) (k : Key) : (s.clear k).intent = s.intent := by
  unfold State.clear State.sweep
  repeat' split
  all_goals simp

@[simp] theorem clear_source (s : State) (k : Key) : (s.clear k).source = s.source := by
  unfold State.clear State.sweep
  repeat' split
  all_goals simp

@[simp] theorem clear_headClashAt (s : State) (k : Key) : (s.clear k).headClashAt = s.headClashAt := by
  unfold State.clear State.sweep
  repeat' split
  all_goals simp

@[simp] theorem clear_link (s : State) (k : Key) : (s.clear k).link = s.link := by
  unfold State.clear State.sweep
  repeat' split
  all_goals simp

@[simp] theorem clear_tell (s : State) (k : Key) : (s.clear k).tell = s.tell := by
  unfold State.clear State.sweep
  repeat' split
  all_goals simp

@[simp] theorem clear_rank (s : State) (k : Key) : (s.clear k).rank = s.rank := by
  unfold State.clear State.sweep
  repeat' split
  all_goals simp

@[simp] theorem clear_rear (s : State) (k : Key) : (s.clear k).rear = s.rear := by
  unfold State.clear State.sweep
  repeat' split
  all_goals simp

@[simp] theorem clear_roster (s : State) (k : Key) : (s.clear k).roster = s.roster := by
  unfold State.clear State.sweep
  repeat' split
  all_goals simp

@[simp] theorem clear_balance (s : State) (k : Key) : (s.clear k).balance = s.balance := by
  unfold State.clear State.sweep
  repeat' split
  all_goals simp

@[simp] theorem clear_warn (s : State) (k : Key) : (s.clear k).warn = s.warn := by
  unfold State.clear State.sweep
  repeat' split
  all_goals simp

@[simp] theorem clear_trainSeconds (s : State) (k : Key) : (s.clear k).trainSeconds = s.trainSeconds := by
  unfold State.clear State.sweep
  repeat' split
  all_goals simp

@[simp] theorem clear_secondAt (s : State) (k : Key) : (s.clear k).secondAt = s.secondAt := by
  unfold State.clear State.sweep
  repeat' split
  all_goals simp

@[simp] theorem clear_learner (s : State) (k : Key) : (s.clear k).learner = s.learner := by
  unfold State.clear State.sweep
  repeat' split
  all_goals simp

@[simp] theorem clear_query (s : State) (k : Key) : (s.clear k).query = s.query := by
  unfold State.clear State.sweep
  repeat' split
  all_goals simp

@[simp] theorem clear_port (s : State) (k : Key) : (s.clear k).port = s.port := by
  unfold State.clear State.sweep
  repeat' split
  all_goals simp

/-! ## detail -/

@[simp] theorem detail_pending (s : State) (k : Key) (g : Details → Details) : (s.detail k g).pending = s.pending := rfl

@[simp] theorem detail_free (s : State) (k : Key) (g : Details → Details) : (s.detail k g).free = s.free := rfl

@[simp] theorem detail_pins (s : State) (k : Key) (g : Details → Details) : (s.detail k g).pins = s.pins := rfl

@[simp] theorem detail_store (s : State) (k : Key) (g : Details → Details) : (s.detail k g).store = s.store := rfl

@[simp] theorem detail_writes (s : State) (k : Key) (g : Details → Details) : (s.detail k g).writes = s.writes := rfl

@[simp] theorem detail_cfg (s : State) (k : Key) (g : Details → Details) : (s.detail k g).cfg = s.cfg := rfl

@[simp] theorem detail_ticks (s : State) (k : Key) (g : Details → Details) : (s.detail k g).ticks = s.ticks := rfl

@[simp] theorem detail_conv (s : State) (k : Key) (g : Details → Details) : (s.detail k g).conv = s.conv := rfl

@[simp] theorem detail_spot (s : State) (k : Key) (g : Details → Details) : (s.detail k g).spot = s.spot := rfl

@[simp] theorem detail_vs (s : State) (k : Key) (g : Details → Details) : (s.detail k g).vs = s.vs := rfl

@[simp] theorem detail_lowSupply (s : State) (k : Key) (g : Details → Details) : (s.detail k g).lowSupply = s.lowSupply := rfl

@[simp] theorem detail_circuits (s : State) (k : Key) (g : Details → Details) : (s.detail k g).circuits = s.circuits := rfl

@[simp] theorem detail_actedEpoch (s : State) (k : Key) (g : Details → Details) : (s.detail k g).actedEpoch = s.actedEpoch := rfl

@[simp] theorem detail_ring (s : State) (k : Key) (g : Details → Details) : (s.detail k g).ring = s.ring := rfl

@[simp] theorem detail_cmd (s : State) (k : Key) (g : Details → Details) : (s.detail k g).cmd = s.cmd := rfl

@[simp] theorem detail_intent (s : State) (k : Key) (g : Details → Details) : (s.detail k g).intent = s.intent := rfl

@[simp] theorem detail_source (s : State) (k : Key) (g : Details → Details) : (s.detail k g).source = s.source := rfl

@[simp] theorem detail_headClashAt (s : State) (k : Key) (g : Details → Details) : (s.detail k g).headClashAt = s.headClashAt := rfl

@[simp] theorem detail_link (s : State) (k : Key) (g : Details → Details) : (s.detail k g).link = s.link := rfl

@[simp] theorem detail_tell (s : State) (k : Key) (g : Details → Details) : (s.detail k g).tell = s.tell := rfl

@[simp] theorem detail_rank (s : State) (k : Key) (g : Details → Details) : (s.detail k g).rank = s.rank := rfl

@[simp] theorem detail_rear (s : State) (k : Key) (g : Details → Details) : (s.detail k g).rear = s.rear := rfl

@[simp] theorem detail_roster (s : State) (k : Key) (g : Details → Details) : (s.detail k g).roster = s.roster := rfl

@[simp] theorem detail_balance (s : State) (k : Key) (g : Details → Details) : (s.detail k g).balance = s.balance := rfl

@[simp] theorem detail_warn (s : State) (k : Key) (g : Details → Details) : (s.detail k g).warn = s.warn := rfl

@[simp] theorem detail_events (s : State) (k : Key) (g : Details → Details) : (s.detail k g).events = s.events := rfl

@[simp] theorem detail_trainSeconds (s : State) (k : Key) (g : Details → Details) : (s.detail k g).trainSeconds = s.trainSeconds := rfl

@[simp] theorem detail_secondAt (s : State) (k : Key) (g : Details → Details) : (s.detail k g).secondAt = s.secondAt := rfl

@[simp] theorem detail_learner (s : State) (k : Key) (g : Details → Details) : (s.detail k g).learner = s.learner := rfl

@[simp] theorem detail_query (s : State) (k : Key) (g : Details → Details) : (s.detail k g).query = s.query := rfl

@[simp] theorem detail_port (s : State) (k : Key) (g : Details → Details) : (s.detail k g).port = s.port := rfl

@[simp] theorem detail_flags (s : State) (k : Key) (g : Details → Details) : (s.detail k g).flags = s.flags := rfl

/-! ## setRanks -/

@[simp] theorem setRanks_pending (s : State) (n : Serial) (r : Option Rank) : (s.setRanks n r).pending = s.pending := rfl

@[simp] theorem setRanks_free (s : State) (n : Serial) (r : Option Rank) : (s.setRanks n r).free = s.free := rfl

@[simp] theorem setRanks_pins (s : State) (n : Serial) (r : Option Rank) : (s.setRanks n r).pins = s.pins := rfl

@[simp] theorem setRanks_store (s : State) (n : Serial) (r : Option Rank) : (s.setRanks n r).store = s.store := rfl

@[simp] theorem setRanks_writes (s : State) (n : Serial) (r : Option Rank) : (s.setRanks n r).writes = s.writes := rfl

@[simp] theorem setRanks_cfg (s : State) (n : Serial) (r : Option Rank) : (s.setRanks n r).cfg = s.cfg := rfl

@[simp] theorem setRanks_ticks (s : State) (n : Serial) (r : Option Rank) : (s.setRanks n r).ticks = s.ticks := rfl

@[simp] theorem setRanks_conv (s : State) (n : Serial) (r : Option Rank) : (s.setRanks n r).conv = s.conv := rfl

@[simp] theorem setRanks_spot (s : State) (n : Serial) (r : Option Rank) : (s.setRanks n r).spot = s.spot := rfl

@[simp] theorem setRanks_vs (s : State) (n : Serial) (r : Option Rank) : (s.setRanks n r).vs = s.vs := rfl

@[simp] theorem setRanks_lowSupply (s : State) (n : Serial) (r : Option Rank) : (s.setRanks n r).lowSupply = s.lowSupply := rfl

@[simp] theorem setRanks_circuits (s : State) (n : Serial) (r : Option Rank) : (s.setRanks n r).circuits = s.circuits := rfl

@[simp] theorem setRanks_actedEpoch (s : State) (n : Serial) (r : Option Rank) : (s.setRanks n r).actedEpoch = s.actedEpoch := rfl

@[simp] theorem setRanks_ring (s : State) (n : Serial) (r : Option Rank) : (s.setRanks n r).ring = s.ring := rfl

@[simp] theorem setRanks_cmd (s : State) (n : Serial) (r : Option Rank) : (s.setRanks n r).cmd = s.cmd := rfl

@[simp] theorem setRanks_intent (s : State) (n : Serial) (r : Option Rank) : (s.setRanks n r).intent = s.intent := rfl

@[simp] theorem setRanks_source (s : State) (n : Serial) (r : Option Rank) : (s.setRanks n r).source = s.source := rfl

@[simp] theorem setRanks_headClashAt (s : State) (n : Serial) (r : Option Rank) : (s.setRanks n r).headClashAt = s.headClashAt := rfl

@[simp] theorem setRanks_link (s : State) (n : Serial) (r : Option Rank) : (s.setRanks n r).link = s.link := rfl

@[simp] theorem setRanks_tell (s : State) (n : Serial) (r : Option Rank) : (s.setRanks n r).tell = s.tell := rfl

@[simp] theorem setRanks_rank (s : State) (n : Serial) (r : Option Rank) : (s.setRanks n r).rank = s.rank := rfl

@[simp] theorem setRanks_rear (s : State) (n : Serial) (r : Option Rank) : (s.setRanks n r).rear = s.rear := rfl

@[simp] theorem setRanks_roster (s : State) (n : Serial) (r : Option Rank) : (s.setRanks n r).roster = s.roster := rfl

@[simp] theorem setRanks_balance (s : State) (n : Serial) (r : Option Rank) : (s.setRanks n r).balance = s.balance := rfl

@[simp] theorem setRanks_warn (s : State) (n : Serial) (r : Option Rank) : (s.setRanks n r).warn = s.warn := rfl

@[simp] theorem setRanks_events (s : State) (n : Serial) (r : Option Rank) : (s.setRanks n r).events = s.events := rfl

@[simp] theorem setRanks_trainSeconds (s : State) (n : Serial) (r : Option Rank) : (s.setRanks n r).trainSeconds = s.trainSeconds := rfl

@[simp] theorem setRanks_secondAt (s : State) (n : Serial) (r : Option Rank) : (s.setRanks n r).secondAt = s.secondAt := rfl

@[simp] theorem setRanks_learner (s : State) (n : Serial) (r : Option Rank) : (s.setRanks n r).learner = s.learner := rfl

@[simp] theorem setRanks_query (s : State) (n : Serial) (r : Option Rank) : (s.setRanks n r).query = s.query := rfl

@[simp] theorem setRanks_port (s : State) (n : Serial) (r : Option Rank) : (s.setRanks n r).port = s.port := rfl

@[simp] theorem setRanks_flags (s : State) (n : Serial) (r : Option Rank) : (s.setRanks n r).flags = s.flags := rfl

/-! ## settleList -/

@[simp] theorem settleList_pending (s : State) : (s.settleList).pending = s.pending := by
  unfold State.settleList State.deriveWarn State.extents
  split <;> rfl

@[simp] theorem settleList_free (s : State) : (s.settleList).free = s.free := by
  unfold State.settleList State.deriveWarn State.extents
  split <;> rfl

@[simp] theorem settleList_pins (s : State) : (s.settleList).pins = s.pins := by
  unfold State.settleList State.deriveWarn State.extents
  split <;> rfl

@[simp] theorem settleList_store (s : State) : (s.settleList).store = s.store := by
  unfold State.settleList State.deriveWarn State.extents
  split <;> rfl

@[simp] theorem settleList_writes (s : State) : (s.settleList).writes = s.writes := by
  unfold State.settleList State.deriveWarn State.extents
  split <;> rfl

@[simp] theorem settleList_cfg (s : State) : (s.settleList).cfg = s.cfg := by
  unfold State.settleList State.deriveWarn State.extents
  split <;> rfl

@[simp] theorem settleList_ticks (s : State) : (s.settleList).ticks = s.ticks := by
  unfold State.settleList State.deriveWarn State.extents
  split <;> rfl

@[simp] theorem settleList_conv (s : State) : (s.settleList).conv = s.conv := by
  unfold State.settleList State.deriveWarn State.extents
  split <;> rfl

@[simp] theorem settleList_spot (s : State) : (s.settleList).spot = s.spot := by
  unfold State.settleList State.deriveWarn State.extents
  split <;> rfl

@[simp] theorem settleList_vs (s : State) : (s.settleList).vs = s.vs := by
  unfold State.settleList State.deriveWarn State.extents
  split <;> rfl

@[simp] theorem settleList_lowSupply (s : State) : (s.settleList).lowSupply = s.lowSupply := by
  unfold State.settleList State.deriveWarn State.extents
  split <;> rfl

@[simp] theorem settleList_circuits (s : State) : (s.settleList).circuits = s.circuits := by
  unfold State.settleList State.deriveWarn State.extents
  split <;> rfl

@[simp] theorem settleList_actedEpoch (s : State) : (s.settleList).actedEpoch = s.actedEpoch := by
  unfold State.settleList State.deriveWarn State.extents
  split <;> rfl

@[simp] theorem settleList_ring (s : State) : (s.settleList).ring = s.ring := by
  unfold State.settleList State.deriveWarn State.extents
  split <;> rfl

@[simp] theorem settleList_cmd (s : State) : (s.settleList).cmd = s.cmd := by
  unfold State.settleList State.deriveWarn State.extents
  split <;> rfl

@[simp] theorem settleList_intent (s : State) : (s.settleList).intent = s.intent := by
  unfold State.settleList State.deriveWarn State.extents
  split <;> rfl

@[simp] theorem settleList_source (s : State) : (s.settleList).source = s.source := by
  unfold State.settleList State.deriveWarn State.extents
  split <;> rfl

@[simp] theorem settleList_headClashAt (s : State) : (s.settleList).headClashAt = s.headClashAt := by
  unfold State.settleList State.deriveWarn State.extents
  split <;> rfl

@[simp] theorem settleList_link (s : State) : (s.settleList).link = s.link := by
  unfold State.settleList State.deriveWarn State.extents
  split <;> rfl

@[simp] theorem settleList_tell (s : State) : (s.settleList).tell = s.tell := by
  unfold State.settleList State.deriveWarn State.extents
  split <;> rfl

@[simp] theorem settleList_rank (s : State) : (s.settleList).rank = s.rank := by
  unfold State.settleList State.deriveWarn State.extents
  split <;> rfl

@[simp] theorem settleList_rear (s : State) : (s.settleList).rear = s.rear := by
  unfold State.settleList State.deriveWarn State.extents
  split <;> rfl

@[simp] theorem settleList_roster (s : State) : (s.settleList).roster = s.roster := by
  unfold State.settleList State.deriveWarn State.extents
  split <;> rfl

@[simp] theorem settleList_balance (s : State) : (s.settleList).balance = s.balance := by
  unfold State.settleList State.deriveWarn State.extents
  split <;> rfl

@[simp] theorem settleList_events (s : State) : (s.settleList).events = s.events := by
  unfold State.settleList State.deriveWarn State.extents
  split <;> rfl

@[simp] theorem settleList_trainSeconds (s : State) : (s.settleList).trainSeconds = s.trainSeconds := by
  unfold State.settleList State.deriveWarn State.extents
  split <;> rfl

@[simp] theorem settleList_secondAt (s : State) : (s.settleList).secondAt = s.secondAt := by
  unfold State.settleList State.deriveWarn State.extents
  split <;> rfl

@[simp] theorem settleList_learner (s : State) : (s.settleList).learner = s.learner := by
  unfold State.settleList State.deriveWarn State.extents
  split <;> rfl

@[simp] theorem settleList_query (s : State) : (s.settleList).query = s.query := by
  unfold State.settleList State.deriveWarn State.extents
  split <;> rfl

@[simp] theorem settleList_port (s : State) : (s.settleList).port = s.port := by
  unfold State.settleList State.deriveWarn State.extents
  split <;> rfl

@[simp] theorem settleList_flags (s : State) : (s.settleList).flags = s.flags := by
  unfold State.settleList State.deriveWarn State.extents
  split <;> rfl

/-! ## startWrite -/

@[simp] theorem startWrite_pending (s : State) : (s.startWrite).pending = s.pending := by
  unfold State.startWrite
  repeat' split
  all_goals rfl

@[simp] theorem startWrite_free (s : State) : (s.startWrite).free = s.free := by
  unfold State.startWrite
  repeat' split
  all_goals rfl

@[simp] theorem startWrite_pins (s : State) : (s.startWrite).pins = s.pins := by
  unfold State.startWrite
  repeat' split
  all_goals rfl

@[simp] theorem startWrite_store (s : State) : (s.startWrite).store = s.store := by
  unfold State.startWrite
  repeat' split
  all_goals rfl

@[simp] theorem startWrite_cfg (s : State) : (s.startWrite).cfg = s.cfg := by
  unfold State.startWrite
  repeat' split
  all_goals rfl

@[simp] theorem startWrite_ticks (s : State) : (s.startWrite).ticks = s.ticks := by
  unfold State.startWrite
  repeat' split
  all_goals rfl

@[simp] theorem startWrite_conv (s : State) : (s.startWrite).conv = s.conv := by
  unfold State.startWrite
  repeat' split
  all_goals rfl

@[simp] theorem startWrite_spot (s : State) : (s.startWrite).spot = s.spot := by
  unfold State.startWrite
  repeat' split
  all_goals rfl

@[simp] theorem startWrite_vs (s : State) : (s.startWrite).vs = s.vs := by
  unfold State.startWrite
  repeat' split
  all_goals rfl

@[simp] theorem startWrite_lowSupply (s : State) : (s.startWrite).lowSupply = s.lowSupply := by
  unfold State.startWrite
  repeat' split
  all_goals rfl

@[simp] theorem startWrite_actedEpoch (s : State) : (s.startWrite).actedEpoch = s.actedEpoch := by
  unfold State.startWrite
  repeat' split
  all_goals rfl

@[simp] theorem startWrite_ring (s : State) : (s.startWrite).ring = s.ring := by
  unfold State.startWrite
  repeat' split
  all_goals rfl

@[simp] theorem startWrite_cmd (s : State) : (s.startWrite).cmd = s.cmd := by
  unfold State.startWrite
  repeat' split
  all_goals rfl

@[simp] theorem startWrite_intent (s : State) : (s.startWrite).intent = s.intent := by
  unfold State.startWrite
  repeat' split
  all_goals rfl

@[simp] theorem startWrite_source (s : State) : (s.startWrite).source = s.source := by
  unfold State.startWrite
  repeat' split
  all_goals rfl

@[simp] theorem startWrite_headClashAt (s : State) : (s.startWrite).headClashAt = s.headClashAt := by
  unfold State.startWrite
  repeat' split
  all_goals rfl

@[simp] theorem startWrite_link (s : State) : (s.startWrite).link = s.link := by
  unfold State.startWrite
  repeat' split
  all_goals rfl

@[simp] theorem startWrite_tell (s : State) : (s.startWrite).tell = s.tell := by
  unfold State.startWrite
  repeat' split
  all_goals rfl

@[simp] theorem startWrite_rank (s : State) : (s.startWrite).rank = s.rank := by
  unfold State.startWrite
  repeat' split
  all_goals rfl

@[simp] theorem startWrite_rear (s : State) : (s.startWrite).rear = s.rear := by
  unfold State.startWrite
  repeat' split
  all_goals rfl

@[simp] theorem startWrite_roster (s : State) : (s.startWrite).roster = s.roster := by
  unfold State.startWrite
  repeat' split
  all_goals rfl

@[simp] theorem startWrite_balance (s : State) : (s.startWrite).balance = s.balance := by
  unfold State.startWrite
  repeat' split
  all_goals rfl

@[simp] theorem startWrite_faults (s : State) : (s.startWrite).faults = s.faults := by
  unfold State.startWrite
  repeat' split
  all_goals rfl

@[simp] theorem startWrite_warn (s : State) : (s.startWrite).warn = s.warn := by
  unfold State.startWrite
  repeat' split
  all_goals rfl

@[simp] theorem startWrite_events (s : State) : (s.startWrite).events = s.events := by
  unfold State.startWrite
  repeat' split
  all_goals rfl

@[simp] theorem startWrite_trainSeconds (s : State) : (s.startWrite).trainSeconds = s.trainSeconds := by
  unfold State.startWrite
  repeat' split
  all_goals rfl

@[simp] theorem startWrite_secondAt (s : State) : (s.startWrite).secondAt = s.secondAt := by
  unfold State.startWrite
  repeat' split
  all_goals rfl

@[simp] theorem startWrite_learner (s : State) : (s.startWrite).learner = s.learner := by
  unfold State.startWrite
  repeat' split
  all_goals rfl

@[simp] theorem startWrite_query (s : State) : (s.startWrite).query = s.query := by
  unfold State.startWrite
  repeat' split
  all_goals rfl

@[simp] theorem startWrite_port (s : State) : (s.startWrite).port = s.port := by
  unfold State.startWrite
  repeat' split
  all_goals rfl

@[simp] theorem startWrite_flags (s : State) : (s.startWrite).flags = s.flags := by
  unfold State.startWrite
  repeat' split
  all_goals rfl

/-! ## reply -/

@[simp] theorem reply_pending (s : State) (o : Byte) (d : List Byte) : (s.reply o d).pending = s.pending := rfl

@[simp] theorem reply_free (s : State) (o : Byte) (d : List Byte) : (s.reply o d).free = s.free := rfl

@[simp] theorem reply_pins (s : State) (o : Byte) (d : List Byte) : (s.reply o d).pins = s.pins := rfl

@[simp] theorem reply_store (s : State) (o : Byte) (d : List Byte) : (s.reply o d).store = s.store := rfl

@[simp] theorem reply_writes (s : State) (o : Byte) (d : List Byte) : (s.reply o d).writes = s.writes := rfl

@[simp] theorem reply_cfg (s : State) (o : Byte) (d : List Byte) : (s.reply o d).cfg = s.cfg := rfl

@[simp] theorem reply_ticks (s : State) (o : Byte) (d : List Byte) : (s.reply o d).ticks = s.ticks := rfl

@[simp] theorem reply_conv (s : State) (o : Byte) (d : List Byte) : (s.reply o d).conv = s.conv := rfl

@[simp] theorem reply_spot (s : State) (o : Byte) (d : List Byte) : (s.reply o d).spot = s.spot := rfl

@[simp] theorem reply_vs (s : State) (o : Byte) (d : List Byte) : (s.reply o d).vs = s.vs := rfl

@[simp] theorem reply_lowSupply (s : State) (o : Byte) (d : List Byte) : (s.reply o d).lowSupply = s.lowSupply := rfl

@[simp] theorem reply_circuits (s : State) (o : Byte) (d : List Byte) : (s.reply o d).circuits = s.circuits := rfl

@[simp] theorem reply_actedEpoch (s : State) (o : Byte) (d : List Byte) : (s.reply o d).actedEpoch = s.actedEpoch := rfl

@[simp] theorem reply_ring (s : State) (o : Byte) (d : List Byte) : (s.reply o d).ring = s.ring := rfl

@[simp] theorem reply_cmd (s : State) (o : Byte) (d : List Byte) : (s.reply o d).cmd = s.cmd := rfl

@[simp] theorem reply_intent (s : State) (o : Byte) (d : List Byte) : (s.reply o d).intent = s.intent := rfl

@[simp] theorem reply_source (s : State) (o : Byte) (d : List Byte) : (s.reply o d).source = s.source := rfl

@[simp] theorem reply_headClashAt (s : State) (o : Byte) (d : List Byte) : (s.reply o d).headClashAt = s.headClashAt := rfl

@[simp] theorem reply_link (s : State) (o : Byte) (d : List Byte) : (s.reply o d).link = s.link := rfl

@[simp] theorem reply_tell (s : State) (o : Byte) (d : List Byte) : (s.reply o d).tell = s.tell := rfl

@[simp] theorem reply_rank (s : State) (o : Byte) (d : List Byte) : (s.reply o d).rank = s.rank := rfl

@[simp] theorem reply_rear (s : State) (o : Byte) (d : List Byte) : (s.reply o d).rear = s.rear := rfl

@[simp] theorem reply_roster (s : State) (o : Byte) (d : List Byte) : (s.reply o d).roster = s.roster := rfl

@[simp] theorem reply_balance (s : State) (o : Byte) (d : List Byte) : (s.reply o d).balance = s.balance := rfl

@[simp] theorem reply_faults (s : State) (o : Byte) (d : List Byte) : (s.reply o d).faults = s.faults := rfl

@[simp] theorem reply_warn (s : State) (o : Byte) (d : List Byte) : (s.reply o d).warn = s.warn := rfl

@[simp] theorem reply_events (s : State) (o : Byte) (d : List Byte) : (s.reply o d).events = s.events := rfl

@[simp] theorem reply_trainSeconds (s : State) (o : Byte) (d : List Byte) : (s.reply o d).trainSeconds = s.trainSeconds := rfl

@[simp] theorem reply_secondAt (s : State) (o : Byte) (d : List Byte) : (s.reply o d).secondAt = s.secondAt := rfl

@[simp] theorem reply_learner (s : State) (o : Byte) (d : List Byte) : (s.reply o d).learner = s.learner := rfl

@[simp] theorem reply_query (s : State) (o : Byte) (d : List Byte) : (s.reply o d).query = s.query := rfl

@[simp] theorem reply_flags (s : State) (o : Byte) (d : List Byte) : (s.reply o d).flags = s.flags := rfl

/-! ## setRank -/

@[simp] theorem setRank_pending (s : State) (u : RankUnit) : (s.setRank u).pending = s.pending := by
  unfold State.setRank State.closeOwnSlot
  repeat' split
  all_goals rfl

@[simp] theorem setRank_free (s : State) (u : RankUnit) : (s.setRank u).free = s.free := by
  unfold State.setRank State.closeOwnSlot
  repeat' split
  all_goals rfl

@[simp] theorem setRank_pins (s : State) (u : RankUnit) : (s.setRank u).pins = s.pins := by
  unfold State.setRank State.closeOwnSlot
  repeat' split
  all_goals rfl

@[simp] theorem setRank_store (s : State) (u : RankUnit) : (s.setRank u).store = s.store := by
  unfold State.setRank State.closeOwnSlot
  repeat' split
  all_goals rfl

@[simp] theorem setRank_writes (s : State) (u : RankUnit) : (s.setRank u).writes = s.writes := by
  unfold State.setRank State.closeOwnSlot
  repeat' split
  all_goals rfl

@[simp] theorem setRank_cfg (s : State) (u : RankUnit) : (s.setRank u).cfg = s.cfg := by
  unfold State.setRank State.closeOwnSlot
  repeat' split
  all_goals rfl

@[simp] theorem setRank_ticks (s : State) (u : RankUnit) : (s.setRank u).ticks = s.ticks := by
  unfold State.setRank State.closeOwnSlot
  repeat' split
  all_goals rfl

@[simp] theorem setRank_conv (s : State) (u : RankUnit) : (s.setRank u).conv = s.conv := by
  unfold State.setRank State.closeOwnSlot
  repeat' split
  all_goals rfl

@[simp] theorem setRank_spot (s : State) (u : RankUnit) : (s.setRank u).spot = s.spot := by
  unfold State.setRank State.closeOwnSlot
  repeat' split
  all_goals rfl

@[simp] theorem setRank_vs (s : State) (u : RankUnit) : (s.setRank u).vs = s.vs := by
  unfold State.setRank State.closeOwnSlot
  repeat' split
  all_goals rfl

@[simp] theorem setRank_lowSupply (s : State) (u : RankUnit) : (s.setRank u).lowSupply = s.lowSupply := by
  unfold State.setRank State.closeOwnSlot
  repeat' split
  all_goals rfl

@[simp] theorem setRank_circuits (s : State) (u : RankUnit) : (s.setRank u).circuits = s.circuits := by
  unfold State.setRank State.closeOwnSlot
  repeat' split
  all_goals rfl

@[simp] theorem setRank_actedEpoch (s : State) (u : RankUnit) : (s.setRank u).actedEpoch = s.actedEpoch := by
  unfold State.setRank State.closeOwnSlot
  repeat' split
  all_goals rfl

@[simp] theorem setRank_ring (s : State) (u : RankUnit) : (s.setRank u).ring = s.ring := by
  unfold State.setRank State.closeOwnSlot
  repeat' split
  all_goals rfl

@[simp] theorem setRank_cmd (s : State) (u : RankUnit) : (s.setRank u).cmd = s.cmd := by
  unfold State.setRank State.closeOwnSlot
  repeat' split
  all_goals rfl

@[simp] theorem setRank_intent (s : State) (u : RankUnit) : (s.setRank u).intent = s.intent := by
  unfold State.setRank State.closeOwnSlot
  repeat' split
  all_goals rfl

@[simp] theorem setRank_source (s : State) (u : RankUnit) : (s.setRank u).source = s.source := by
  unfold State.setRank State.closeOwnSlot
  repeat' split
  all_goals rfl

@[simp] theorem setRank_headClashAt (s : State) (u : RankUnit) : (s.setRank u).headClashAt = s.headClashAt := by
  unfold State.setRank State.closeOwnSlot
  repeat' split
  all_goals rfl

@[simp] theorem setRank_link (s : State) (u : RankUnit) : (s.setRank u).link = s.link := by
  unfold State.setRank State.closeOwnSlot
  repeat' split
  all_goals rfl

@[simp] theorem setRank_tell (s : State) (u : RankUnit) : (s.setRank u).tell = s.tell := by
  unfold State.setRank State.closeOwnSlot
  repeat' split
  all_goals rfl

@[simp] theorem setRank_rear (s : State) (u : RankUnit) : (s.setRank u).rear = s.rear := by
  unfold State.setRank State.closeOwnSlot
  repeat' split
  all_goals rfl

@[simp] theorem setRank_balance (s : State) (u : RankUnit) : (s.setRank u).balance = s.balance := by
  unfold State.setRank State.closeOwnSlot
  repeat' split
  all_goals rfl

@[simp] theorem setRank_faults (s : State) (u : RankUnit) : (s.setRank u).faults = s.faults := by
  unfold State.setRank State.closeOwnSlot
  repeat' split
  all_goals rfl

@[simp] theorem setRank_warn (s : State) (u : RankUnit) : (s.setRank u).warn = s.warn := by
  unfold State.setRank State.closeOwnSlot
  repeat' split
  all_goals rfl

@[simp] theorem setRank_events (s : State) (u : RankUnit) : (s.setRank u).events = s.events := by
  unfold State.setRank State.closeOwnSlot
  repeat' split
  all_goals rfl

@[simp] theorem setRank_trainSeconds (s : State) (u : RankUnit) : (s.setRank u).trainSeconds = s.trainSeconds := by
  unfold State.setRank State.closeOwnSlot
  repeat' split
  all_goals rfl

@[simp] theorem setRank_secondAt (s : State) (u : RankUnit) : (s.setRank u).secondAt = s.secondAt := by
  unfold State.setRank State.closeOwnSlot
  repeat' split
  all_goals rfl

@[simp] theorem setRank_learner (s : State) (u : RankUnit) : (s.setRank u).learner = s.learner := by
  unfold State.setRank State.closeOwnSlot
  repeat' split
  all_goals rfl

@[simp] theorem setRank_query (s : State) (u : RankUnit) : (s.setRank u).query = s.query := by
  unfold State.setRank State.closeOwnSlot
  repeat' split
  all_goals rfl

@[simp] theorem setRank_port (s : State) (u : RankUnit) : (s.setRank u).port = s.port := by
  unfold State.setRank State.closeOwnSlot
  repeat' split
  all_goals rfl

@[simp] theorem setRank_flags (s : State) (u : RankUnit) : (s.setRank u).flags = s.flags := by
  unfold State.setRank State.closeOwnSlot
  repeat' split
  all_goals rfl

/-! ## What each update does hold -/

@[simp] theorem setC_circuits (s : State) (c : Circ) (k : Circuit) : (s.setC c k).circuits = put s.circuits c k := rfl

@[simp] theorem now_setC (s : State) (c : Circ) (k : Circuit) : (s.setC c k).now = s.now := rfl

@[simp] theorem isHead_setC (s : State) (c : Circ) (k : Circuit) : (s.setC c k).isHead = s.isHead := rfl

end Sys2Proof.Machine
end

