-- ==== Sys2Proof/Laws/Ops.lean ====
section
/-! SUPPORT. What each shared operation of Machine/Ops.lean can do, once each, for a proof to cite in place of its
definition. -/

namespace Sys2Proof.Machine

/-- Two states equal field by field are equal. -/
theorem state_ext {s t : State} (h1 : s.pending = t.pending) (h2 : s.free = t.free) (h3 : s.pins = t.pins)
    (h4 : s.store = t.store) (h5 : s.writes = t.writes) (h6 : s.cfg = t.cfg) (h7 : s.ticks = t.ticks)
    (h8 : s.conv = t.conv) (h9 : s.spot = t.spot) (h10 : s.vs = t.vs) (h11 : s.lowSupply = t.lowSupply)
    (h12 : s.circuits = t.circuits) (h13 : s.actedEpoch = t.actedEpoch) (h14 : s.ring = t.ring) (h15 : s.cmd = t.cmd)
    (h16 : s.intent = t.intent) (h17 : s.source = t.source) (h18 : s.headClashAt = t.headClashAt)
    (h19 : s.link = t.link) (h20 : s.tell = t.tell) (h21 : s.rank = t.rank) (h22 : s.rear = t.rear)
    (h23 : s.roster = t.roster) (h24 : s.balance = t.balance) (h25 : s.faults = t.faults) (h26 : s.warn = t.warn)
    (h27 : s.events = t.events) (h28 : s.trainSeconds = t.trainSeconds) (h29 : s.secondAt = t.secondAt)
    (h30 : s.learner = t.learner) (h31 : s.query = t.query) (h32 : s.port = t.port) (h33 : s.flags = t.flags) :
    s = t := by
  cases s; cases t; simp_all

/-- A circuit replaced reads back, and no other circuit changes. -/
theorem setC_circuit (s : State) (c d : Circ) (k : Circuit) :
    (s.setC c k).circuits[d] = if d = c then k else s.circuits[d] := put_get _ _ _ _

/-- R56: coasting depends on the active cause set and the mask alone. -/
theorem coasting_congr {s t : State} (h : s.activeCauses = t.activeCauses) (m : s.cfg = t.cfg) :
    s.coasting = t.coasting := by simp [State.coasting, h, m]

/-- R200: an event is appended, or dropped with EVENT OVERFLOW, and a unit raises none. -/
theorem raise_cases (s : State) (b : EventBody) :
    s.isHead = false ∧ s.raise b = s ∨
      s.isHead = true ∧ s.events.length < 16 ∧ s.raise b = { s with events := s.events ++ [⟨b, s.trainSeconds⟩] } ∨
      s.isHead = true ∧ 16 ≤ s.events.length ∧ s.raise b = { s with flags := { s.flags with eventOverflow := true } } := by
  unfold State.raise
  cases h : s.isHead with
  | false => simp
  | true =>
    by_cases g : s.events.length < 16
    · simp [g]
    · simp [g]; omega

/-- R59: a beginning or an end of coasting raises its event, and nothing else does. -/
theorem coastEdge_cases (b s : State) :
    b.coasting = s.coasting ∧ coastEdge b s = s ∨
      b.coasting = false ∧ s.coasting = true ∧ coastEdge b s = s.raise .coastBegin ∨
      b.coasting = true ∧ s.coasting = false ∧ coastEdge b s = s.raise .coastEnd := by
  unfold coastEdge
  cases hb : b.coasting <;> cases hs : s.coasting <;> simp

/-- R127: a telegram is put in its slot, or dropped by a silent station. -/
theorem putSlot_cases (s : State) (k : TKind) (f : Slots → Slots) :
    s.isSilent = true ∧ s.putSlot k f = s ∨
      s.isSilent = false ∧
        s.putSlot k f = { s with link := { s.link with slots := f s.link.slots, tx := s.link.tx.queued k } } := by
  unfold State.putSlot
  cases s.isSilent <;> simp

/-- R136: what queuing a STATUS leaves: the timers run again, nothing waits, and the slot holds the content of now. -/
theorem queueStatus_cases (s : State) :
    let tell := { s.tell with statusAt := s.now + 500, holdoffAt := s.now + 100, waiting := false }
    s.isSilent = true ∧ s.queueStatus = { s with tell := tell } ∨
      s.isSilent = false ∧ s.queueStatus = { s with
        tell := tell
        link := { s.link with
          slots := { s.link.slots with status := some s.report.encode }, tx := s.link.tx.queued .status } } := by
  have e (t : Telling) : ({ s with tell := t } : State).isSilent = s.isSilent := rfl
  unfold State.queueStatus State.putSlot
  simp only [e]
  cases s.isSilent <;> simp

/-- R136: a noted change queues a STATUS or waits. -/
theorem noteChange_cases (s : State) :
    (s.tell.holdoffAt ≤ s.now ∨ s.tell.expiredAt = some s.now) ∧ s.noteChange = s.queueStatus ∨
      s.now < s.tell.holdoffAt ∧ s.tell.expiredAt ≠ some s.now ∧
        s.noteChange = { s with tell := { s.tell with waiting := true } } := by
  unfold State.noteChange
  by_cases h : s.tell.holdoffAt ≤ s.now
  · simp [h]
  · by_cases g : s.tell.expiredAt = some s.now
    · simp [g]
    · simp only [h, g, false_or, or_self, decide_false, Bool.or_self, Bool.false_eq_true, if_false, false_and]
      exact ⟨Nat.lt_of_not_le h, g, by simp⟩

/-- R136: a change between two states is noted, and only a change. -/
theorem announce_cases (b s : State) :
    s.news = b.news ∧ announce b s = s ∨ s.news ≠ b.news ∧ announce b s = s.noteChange := by
  unfold announce
  by_cases h : s.news = b.news <;> simp [h]

/-- R9 to R12: a busy converter stays with its grant; a free one goes to edge-confirm, spot and scan in that order. -/
theorem arbitrate_cases (s : State) :
    s.conv.grant ≠ none ∧ s.arbitrate = s ∨
    (∃ c rest, s.conv.grant = none ∧ s.conv.confirmQueue = c :: rest ∧ s.arbitrate =
      { s with conv := { s.conv with grant := some ⟨.confirm c, s.ticks⟩, confirmQueue := rest } }) ∨
    (∃ r, s.conv.grant = none ∧ s.conv.confirmQueue = [] ∧ s.conv.spotWaiting = true ∧ s.spot.reading = some r ∧
      s.arbitrate = { s with conv := { s.conv with
        grant := some ⟨.spotPair r.circuit, s.ticks⟩, spotWaiting := false, spotSinceScan := true } }) ∨
    (∃ p, s.conv.grant = none ∧ s.conv.confirmQueue = [] ∧ s.conv.scanWaiting = some p ∧ s.arbitrate =
      { s with conv := { s.conv with
        grant := some ⟨.scanPair p, s.ticks⟩, scanWaiting := none, spotSinceScan := false
        spotWaiting := s.spot.reading.isSome } }) ∨
    s.conv.grant = none ∧ s.conv.confirmQueue = [] ∧ s.conv.scanWaiting = none ∧ s.arbitrate = s := by
  unfold State.arbitrate
  cases hg : s.conv.grant with
  | some g => simp
  | none =>
    cases hq : s.conv.confirmQueue with
    | cons c rest => simp
    | nil =>
      cases hw : s.conv.spotWaiting <;> cases hr : s.spot.reading <;> cases hs : s.conv.scanWaiting <;> simp

/-- The arbiter touches nothing but the converter. -/
theorem arbitrate_frame (s : State) : s.arbitrate = { s with conv := s.arbitrate.conv } := by
  rcases arbitrate_cases s with ⟨_, e⟩ | ⟨_, _, _, _, e⟩ | ⟨_, _, _, _, _, e⟩ | ⟨_, _, _, _, e⟩ | ⟨_, _, _, e⟩ <;> rw [e]

/-- R9: a release touches nothing but the converter. -/
theorem release_frame (s : State) : s.release = { s with conv := s.release.conv } := by
  unfold State.release
  rw [arbitrate_frame]

/-- R209, R211: a reading started replaces any in progress; the waiting READING stays. -/
theorem startReading_frame (s : State) (tag : BitVec 4) (c : Circ) :
    s.startReading tag c =
      { s with spot := ⟨some ⟨tag, c, 0, 0, 0⟩, s.spot.waiting⟩, conv := (s.startReading tag c).conv } := by
  unfold State.startReading
  rw [arbitrate_frame]

/-- R48: 125 µs move the clock, and on the head the counts of the intent sampler. -/
theorem tick_frame (s : State) :
    s.tick = { s with ticks := s.ticks + 1, intent := s.tick.intent } ∧
      s.tick.intent.debounced = s.intent.debounced ∧ s.tick.intent.crank = s.intent.crank ∧
      (s.isHead = false → s.tick.intent = s.intent) := by
  have e (n : Nat) : ({ s with ticks := n } : State).isHead = s.isHead := rfl
  unfold State.tick State.readIntents
  simp only [e]
  by_cases h : (s.ticks + 1) % 8 = 0
  · cases hh : s.isHead <;> simp [h]
  · simp [h]

end Sys2Proof.Machine
end

