-- ==== Sys2Proof/Laws/Circuits.lean ====
section
/-! SUPPORT. What the operations on one circuit can do: the cadence tracker, the records, the ring and the reference
unit (chapters 2, 3 and 6). -/

namespace Sys2Proof.Machine

/-! ## Records -/

/-- R45: a queue with room takes a record; a full one gives up its oldest, with a count. -/
theorem push_cases (k : Circuit) (r : Rec) :
    k.queue.length < 2 ∧ k.push r = { k with queue := k.queue ++ [r] } ∨
      2 ≤ k.queue.length ∧
        k.push r = { k with queue := k.queue.drop 1 ++ [r], glitch := satInc 65535 k.glitch } := by
  unfold Circuit.push
  by_cases h : k.queue.length < 2
  · exact .inl ⟨h, if_pos h⟩
  · exact .inr ⟨by omega, if_neg h⟩

/-- R45: at most two records wait, whatever is pushed. -/
theorem push_bound {k : Circuit} (h : k.queue.length ≤ 2) (r : Rec) : (k.push r).queue.length ≤ 2 := by
  rcases push_cases k r with ⟨g, e⟩ | ⟨g, e⟩ <;> rw [e] <;> simp <;> omega

/-- A push touches the queue and the glitch tally alone. -/
theorem push_frame (k : Circuit) (r : Rec) :
    k.push r = { k with queue := (k.push r).queue, glitch := (k.push r).glitch } := by
  rcases push_cases k r with ⟨_, e⟩ | ⟨_, e⟩ <;> rw [e]

/-- R41: at a mode change the record being built is dropped, or closed and queued; the tracker stays. -/
theorem closeForMode_cases (k : Circuit) (now : Ms) :
    (k.opened = none ∧ k.closeForMode now = k) ∨
    (∃ r, k.opened = some r ∧ r.start = now ∧ k.closeForMode now = { k with opened := none }) ∨
    (∃ r, k.opened = some r ∧ r.start ≠ now ∧
      k.closeForMode now = { k.push { r with finish := now } with opened := none }) := by
  unfold Circuit.closeForMode
  cases h : k.opened with
  | none => simp
  | some r => by_cases g : r.start = now <;> simp [g]

/-! ## The tracker -/

/-- R31: what goes with a lock state after unlocking. -/
theorem unlock_law {t : Tracker} (h : t.law = true) (now : Ms) : (t.unlock now).law = true := by
  cases hl : t.locked <;> cases ha : t.activity <;> simp_all [Tracker.law, Tracker.unlock]

/-- R30: a candidate period taken UNLOCKED leaves the window short, or locks with four periods. -/
theorem takeUnlocked_cases (t : Tracker) (p : Nat) (h : t.window.length ≤ 4) :
    (∃ w, w.length ≤ 4 ∧ t.takeUnlocked p = { t with window := w }) ∨
      ∃ w, w.length = 4 ∧ t.takeUnlocked p = { t with
        window := w, locked := true, pbar := some (meanPeriod w), disagree := 0, miss := 0, silenceAt := none } := by
  have bound : (if (t.window ++ [p]).length = 5 then (t.window ++ [p]).drop 1 else t.window ++ [p]).length ≤ 4 := by
    split
    · rw [List.length_drop]; omega
    · next g => simp at g ⊢; omega
  unfold Tracker.takeUnlocked
  dsimp only
  generalize (if (t.window ++ [p]).length = 5 then (t.window ++ [p]).drop 1 else t.window ++ [p]) = w at bound
  by_cases g : (w.length = 4 && w.all (fun q => absDiff q (meanPeriod w) * 20 ≤ meanPeriod w)) = true
  · rw [if_pos g]
    simp only [Bool.and_eq_true, decide_eq_true_eq] at g
    exact .inr ⟨w, g.1, rfl⟩
  · rw [if_neg g]
    exact .inl ⟨w, bound, rfl⟩

/-- R31: a candidate period taken LOCKED is good, or disagrees, or unlocks at the third disagreement. -/
theorem takeLocked_cases (t : Tracker) (p now : Nat) :
    (t.takeLocked p now = { t with
      window := t.window.drop 1 ++ [p], pbar := some (meanPeriod (t.window.drop 1 ++ [p])), disagree := 0 }) ∨
    (t.disagree < 2 ∧ t.takeLocked p now = { t with disagree := t.disagree + 1 }) ∨
    (2 ≤ t.disagree ∧ t.takeLocked p now = t.unlock now) := by
  unfold Tracker.takeLocked
  dsimp only
  by_cases h : absDiff p (t.pbar.getD 0) * 10 ≤ t.pbar.getD 0
  · simp [h]
  · by_cases g : t.disagree + 1 ≥ 3
    · rw [if_neg h, if_pos g]; exact .inr (.inr ⟨by omega, rfl⟩)
    · rw [if_neg h, if_neg g]; exact .inr (.inl ⟨by omega, rfl⟩)

/-- R29: an off-edge leaves the lock state and the periods alone. -/
theorem offEdge_frame (t : Tracker) (edge : Ms) (reported : Option Nat) (closed : Bool) :
    t.offEdge edge reported closed = { t with
      lastT := (t.offEdge edge reported closed).lastT, phaseStart := none
      latestNote := (t.offEdge edge reported closed).latestNote } := rfl

/-- R35, R36: a note that is formed holds a finding, and its duty and period are those measured. -/
theorem formNote_cases (pbar onTime : Nat) (reported : Option Nat) :
    formNote pbar onTime reported = none ∨
      ∃ n, formNote pbar onTime reported = some n ∧ (n.period || n.duty || n.mismatch) = true ∧ n.pbar = pbar ∧
        n.onTime = onTime ∧ n.dutyPercent = (onTime * 100 + pbar / 2) / pbar := by
  cases reported <;> unfold formNote <;> dsimp only <;> split
  · next h => exact .inr ⟨_, rfl, h, rfl, rfl, rfl⟩
  · exact .inl rfl
  · next h => exact .inr ⟨_, rfl, h, rfl, rfl, rfl⟩
  · exact .inl rfl

/-! ## The ring -/

/-- R52: eight entries at most, and the newest is the one added. -/
theorem ringAdd_spec (ring : List RingEntry) (e : RingEntry) (h : ring.length ≤ 8) :
    (ringAdd ring e).length ≤ 8 ∧ (ringAdd ring e).getLast? = some e := by
  unfold ringAdd
  split
  · simp; omega
  · simp; omega

/-- R52: an entry dated no earlier than those held keeps the dates in order. -/
theorem ringAdd_dates {ring : List RingEntry} {e : RingEntry} (h : (ring.map RingEntry.date).Pairwise (· ≤ ·))
    (last : ∀ x ∈ ring, x.date ≤ e.date) : ((ringAdd ring e).map RingEntry.date).Pairwise (· ≤ ·) := by
  have key (r : List RingEntry) (hr : (r.map RingEntry.date).Pairwise (· ≤ ·)) (hl : ∀ x ∈ r, x.date ≤ e.date) :
      ((r ++ [e]).map RingEntry.date).Pairwise (· ≤ ·) := by
    simp only [List.map_append, List.pairwise_append, List.map_cons, List.map_nil, List.pairwise_singleton,
      List.mem_map, List.mem_singleton, true_and, hr]
    rintro _ ⟨x, hx, rfl⟩ _ rfl
    exact hl x hx
  unfold ringAdd
  split
  · exact key _ h last
  · exact key _ (by rw [List.map_drop]; exact h.sublist (List.drop_sublist _ _))
      fun x hx => last x (List.mem_of_mem_drop hx)

/-- R27, R41: an added entry reaches a circuit as a change of FLASHING or not at all. -/
theorem addRing_circuit (s : State) (e : RingEntry) (c : Circ) :
    (s.addRing e).circuits[c] = s.circuits[c] ∨
      (s.addRing e).circuits[c] =
        s.circuits[c].flashingChange (e.states[s.circuits[c].cfg.fn.idx] == .flashing) s.now := by
  unfold State.addRing
  show (eight _)[c] = _ ∨ (eight _)[c] = _
  rw [eight_get]
  dsimp only
  split
  · exact .inl rfl
  · exact .inr rfl

/-- R37: the head's reported period is looked at again: nothing, another source, or another period under a new
epoch. -/
theorem reevaluatePeriod_cases (b s : State) :
    reevaluatePeriod b s = s ∨
    (∃ x, s.isHead = true ∧ reevaluatePeriod b s = { s with source := { s.source with lastSource := x } }) ∨
    (∃ x p, s.isHead = true ∧
      reevaluatePeriod b s = State.epochChange { s with source := { s.source with lastSource := x, reported := p } }) := by
  unfold reevaluatePeriod
  cases hh : s.isHead with
  | false => simp
  | true =>
    rw [if_pos rfl]
    cases hp : s.periodSource with
    | none =>
      dsimp only
      split
      · exact .inr (.inl ⟨none, rfl, rfl⟩)
      · exact .inr (.inr ⟨none, 0, rfl, rfl⟩)
    | some c =>
      dsimp only
      split
      · split
        · exact .inr (.inl ⟨some c, rfl, rfl⟩)
        · exact .inr (.inr ⟨some c, _, rfl, rfl⟩)
      · exact .inl rfl

/-! ## The reference unit -/

/-- R98: a failure returns to LEARNED exactly where an Iref is in use. -/
theorem fail_spec (r : RefUnit) (why : LearnOutcome) :
    (r.fail why).iref = r.iref ∧ (r.fail why).learn = (if r.iref.isSome then .learned else .unlearned) ∧
      (r.fail why).outcome = why ∧ (r.fail why).k = 0 ∧ (r.fail why).deadline = none := ⟨rfl, rfl, rfl, rfl, rfl⟩

/-- R109: a circuit that waits keeps its place, and another joins at the end. -/
theorem add_circuits (w : WriteEngine) (c : Circ) (iref : Nat) :
    (w.add c iref).queue.map RefWrite.circuit =
      if c ∈ w.queue.map RefWrite.circuit then w.queue.map RefWrite.circuit
      else w.queue.map RefWrite.circuit ++ [c] := by
  unfold WriteEngine.add
  by_cases h : c ∈ w.queue.map RefWrite.circuit
  · have g : (w.queue.any (·.circuit == c)) = true := by
      obtain ⟨q, hq, rfl⟩ := List.mem_map.1 h
      exact List.any_eq_true.2 ⟨q, hq, by simp⟩
    rw [if_pos g, if_pos h]
    simp only [List.map_map]
    refine List.map_congr_left fun q _ => ?_
    by_cases e : q.circuit = c <;> simp [e]
  · have g : ¬ (w.queue.any (·.circuit == c)) = true := by
      intro g
      obtain ⟨q, hq, e⟩ := List.any_eq_true.1 g
      exact h (List.mem_map.2 ⟨q, hq, by simpa using e⟩)
    rw [if_neg g, if_neg h]; simp

/-- R109: no circuit waits twice. -/
theorem add_nodup {w : WriteEngine} (c : Circ) (iref : Nat) (h : (w.queue.map RefWrite.circuit).Nodup) :
    ((w.add c iref).queue.map RefWrite.circuit).Nodup := by
  rw [add_circuits]
  split
  · exact h
  next n => exact List.nodup_append.2 ⟨h, by simp, fun a ha b hb => by
      rw [List.mem_singleton] at hb; rintro rfl; exact n (hb ▸ ha)⟩

/-- R109: a write starts, or nothing changes. -/
theorem startWrite_cases (s : State) :
    (s.writes.current ≠ none ∧ s.startWrite = s) ∨
    (∃ b, s.writes.current = none ∧ s.writes.configSlot = some b ∧ s.startWrite =
      { s with writes := { s.writes with configSlot := none, current := some ⟨.config, withCheck b, s.now + 10⟩ } }) ∨
    (∃ q rest, s.writes.current = none ∧ s.writes.configSlot = none ∧ s.writes.queue = q :: rest ∧ s.startWrite =
      State.setSave { s with writes := { s.writes with
        queue := rest
        current := some ⟨.reference q.circuit, withCheck (refContent q.iref), s.now + 10⟩ } } q.circuit .writing) ∨
    (s.writes = ⟨[], none, none⟩ ∧ s.startWrite = s) := by
  unfold State.startWrite
  rcases hw : s.writes with ⟨queue, slot, current⟩
  cases current with
  | some w => simp
  | none =>
    cases slot with
    | some b => simp
    | none => cases queue <;> simp

/-- R101: a lamp sample is ignored, accepted, restarts the run, or is the eighth. -/
theorem handSample_cases (s : State) (c : Circ) (sample : Nat) :
    (s.circuits[c].ref.learn ≠ .learning ∧ s.handSample c sample = s) ∨
    (∃ k sum, k < 8 ∧ s.handSample c sample =
      s.setC c { s.circuits[c] with ref := { s.circuits[c].ref with k := k, sum := sum } }) ∨
    (s.circuits[c].ref.learn = .learning ∧ s.circuits[c].ref.agrees sample = true ∧ 7 ≤ s.circuits[c].ref.k ∧
      s.handSample c sample = s.finishLearning c (s.circuits[c].ref.sum + sample)) := by
  unfold State.handSample
  dsimp only
  split
  · next h =>
    split
    · next g =>
      split
      · next e => exact .inr (.inr ⟨h, g, by omega, rfl⟩)
      · exact .inr (.inl ⟨_, _, by omega, rfl⟩)
    · exact .inr (.inl ⟨_, _, by omega, rfl⟩)
  · next h => exact .inl ⟨h, rfl⟩

end Sys2Proof.Machine
end

