-- ==== Sys2Proof/Laws/FaultList.lean ====
section
/-! SUPPORT. What each change of the fault list can do (chapter 10), and which of them keep the law of the list. -/

namespace Sys2Proof.Machine

/-! ## What an operation does -/

/-- R183: a new entry is appended, after an eviction where the list is full, or dropped with LIST OVERFLOW. -/
theorem makeEntry_cases (s : State) (e : Entry) :
    (s.faults.entries.length < 32 ∧ s.makeEntry e = s.append s.faults.entries e) ∨
    (32 ≤ s.faults.entries.length ∧ (s.faults.entries.any (·.state == .cleared)) = true ∧
      s.makeEntry e = s.append (s.faults.entries.eraseP (·.state == .cleared)) e) ∨
    (32 ≤ s.faults.entries.length ∧ (s.faults.entries.any (·.state == .cleared)) = false ∧
      s.makeEntry e = { s with
        faults := { s.faults with overflow := satInc 255 s.faults.overflow }
        flags := { s.flags with listOverflow := true } }) := by
  unfold State.makeEntry evict
  by_cases h : s.faults.entries.length < 32
  · exact .inl ⟨h, if_pos h⟩
  · rw [if_neg h]
    cases g : s.faults.entries.any (·.state == .cleared) with
    | true => exact .inr (.inl ⟨by omega, rfl, by simp⟩)
    | false => exact .inr (.inr ⟨by omega, rfl, by simp⟩)

/-- R183: an append adds one entry and raises FAULT CONFIRMED with its index. -/
theorem append_faults (s : State) (es : List Entry) (e : Entry) :
    (s.append es e).faults = { s.faults with entries := es ++ [e] } := by
  unfold State.append; simp

/-- R181: a confirmation makes an entry, gives an ACTIVE or ORPHANED one new details, or reactivates a CLEARED one. -/
theorem confirm_cases (s : State) (k : Key) (d : Details) (claim : Option Rank) :
    (s.faults.entryOf k = none ∧ s.confirm k d claim = s.makeEntry (s.newEntry k d claim)) ∨
    (∃ e, s.faults.entryOf k = some e ∧ e.state = .active ∧
      s.confirm k d claim = s.mapEntry k fun e => { e with details := d }) ∨
    (∃ e, s.faults.entryOf k = some e ∧ e.state = .orphaned ∧
      s.confirm k d claim = s.mapEntry k fun e => { e with state := .active, details := d }) ∨
    (∃ e, s.faults.entryOf k = some e ∧ e.state = .cleared ∧
      s.confirm k d claim = State.raise (s.mapEntry k fun e => e.reactivate d (s.ranksFor k claim))
        (.faultConfirmed ((s.faults.indexOf k).getD 0) k.serial)) := by
  unfold State.confirm
  cases h : s.faults.entryOf k with
  | none => simp
  | some e => cases g : e.state <;> simp [g]

/-- R182, R194: a clear acts on an entry that is ACTIVE or ORPHANED and on no other. -/
theorem clear_cases (s : State) (k : Key) :
    ((s.faults.entryOf k).all (fun e => e.state == .cleared) = true ∧ s.clear k = s) ∨
    (∃ e, s.faults.entryOf k = some e ∧ e.state ≠ .cleared ∧ s.clear k = State.sweep
      (State.raise (s.mapEntry k fun e => { e with state := .cleared, extent := 0 })
        (.faultCleared ((s.faults.indexOf k).getD 0) k.serial)) k) := by
  unfold State.clear
  cases h : s.faults.entryOf k with
  | none => simp
  | some e => cases g : e.state <;> simp [EntryState.stands, g]

/-- R195: WARN is kept while the list calls for its state, and entered anew otherwise. -/
theorem deriveWarn_cases (s : State) :
    (s.faults.warnState = s.warn.state ∧ s.deriveWarn = s) ∨
      (s.faults.warnState ≠ s.warn.state ∧ s.deriveWarn = { s with warn := .enter s.faults.warnState s.now }) := by
  unfold State.deriveWarn
  by_cases h : s.faults.warnState = s.warn.state <;> simp [h]

/-- R195: after WARN is derived the driver stands in the state the list calls for. -/
theorem deriveWarn_law (s : State) : s.deriveWarn.warnLaw = true := by
  rcases deriveWarn_cases s with ⟨h, e⟩ | ⟨_, e⟩ <;> rw [e]
  · simp [State.warnLaw, h]
  · show (Warn.enter s.faults.warnState s.now).state == s.faults.warnState
    cases s.faults.warnState <;> rfl

/-- R180, R195: so it does after every input. -/
theorem settleList_warnLaw (s : State) : s.settleList.warnLaw = true := deriveWarn_law _

/-- The list that calls for no light calls for none after its extents are recomputed: WARN reads severities, states
and flags alone. -/
theorem warnState_congr {l m : FaultList}
    (h : l.entries.map (fun e => (e.severity, e.acked, e.state)) = m.entries.map fun e => (e.severity, e.acked, e.state)) :
    l.warnState = m.warnState := by
  have blink (l : FaultList) : (l.entries.any fun e => e.severity == .critical && !e.acked && e.state.stands) =
      (l.entries.map fun e => (e.severity, e.acked, e.state)).any fun x => x.1 == .critical && !x.2.1 && x.2.2.stands := by
    simp [List.any_map, Function.comp_def]
  have steady (l : FaultList) :
      (l.entries.any fun e => (e.severity == .critical || e.severity == .major) && e.state.stands) =
      (l.entries.map fun e => (e.severity, e.acked, e.state)).any fun x =>
        (x.1 == .critical || x.1 == .major) && x.2.2.stands := by
    simp [List.any_map, Function.comp_def]
  unfold FaultList.warnState
  rw [blink, steady, blink, steady, h]

/-! ## The law of the list -/

/-- R177, R183: the law reads the fault list alone. -/
theorem listLaw_congr {s t : State} (h : s.faults = t.faults) : s.listLaw = t.listLaw := by
  unfold State.listLaw; rw [h]

/-- What the law of the list says. -/
theorem listLaw_iff (s : State) :
    s.listLaw = true ↔ s.faults.entries.length ≤ 32 ∧ (s.faults.entries.map Entry.key).Nodup ∧
      s.faults.overflow ≤ 255 ∧ ∀ e ∈ s.faults.entries, 1 ≤ e.occurrences ∧ e.occurrences ≤ 255 := by
  simp [State.listLaw, and_assoc]

/-- A change in place that keeps keys and counts keeps the law. -/
theorem mapEntries_listLaw {s : State} (h : s.listLaw = true) {g : Entry → Entry} (hk : ∀ e, (g e).key = e.key)
    (ho : ∀ e, 1 ≤ e.occurrences → e.occurrences ≤ 255 → 1 ≤ (g e).occurrences ∧ (g e).occurrences ≤ 255) :
    (s.mapEntries g).listLaw = true := by
  rw [listLaw_iff] at h ⊢
  obtain ⟨h1, h2, h3, h4⟩ := h
  refine ⟨by simpa [State.mapEntries] using h1, ?_, h3, ?_⟩
  · have : (s.faults.entries.map g).map Entry.key = s.faults.entries.map Entry.key := by
      rw [List.map_map]; exact List.map_congr_left fun e _ => hk e
    show ((s.faults.entries.map g).map Entry.key).Nodup
    rw [this]; exact h2
  · intro e he
    obtain ⟨x, hx, rfl⟩ := List.mem_map.mp he
    exact ho x (h4 x hx).1 (h4 x hx).2

theorem mapEntry_listLaw {s : State} (h : s.listLaw = true) (k : Key) {g : Entry → Entry} (hk : ∀ e, (g e).key = e.key)
    (ho : ∀ e, 1 ≤ e.occurrences → e.occurrences ≤ 255 → 1 ≤ (g e).occurrences ∧ (g e).occurrences ≤ 255) :
    (s.mapEntry k g).listLaw = true := by
  refine mapEntries_listLaw h (fun e => ?_) fun e a b => ?_
  · split
    · exact hk e
    · rfl
  · split
    · exact ho e a b
    · exact ⟨a, b⟩

/-- An event leaves the law as it stands. -/
theorem raise_listLaw (s : State) (b : EventBody) : (s.raise b).listLaw = s.listLaw := listLaw_congr (by simp)

/-- A list with fewer of the same entries meets the law. -/
theorem sublist_listLaw {s t : State} (h : s.listLaw = true) (sub : t.faults.entries.Sublist s.faults.entries)
    (o : t.faults.overflow = s.faults.overflow) : t.listLaw = true := by
  rw [listLaw_iff] at h ⊢
  obtain ⟨h1, h2, h3, h4⟩ := h
  exact ⟨sub.length_le.trans h1, (sub.map Entry.key).nodup h2, o ▸ h3, fun e he => h4 e (sub.subset he)⟩

/-- R182: a clear keeps the law. -/
theorem clear_listLaw {s : State} (h : s.listLaw = true) (k : Key) : (s.clear k).listLaw = true := by
  rcases clear_cases s k with ⟨_, e⟩ | ⟨_, _, _, e⟩ <;> rw [e]
  · exact h
  · refine sublist_listLaw (s := State.raise _ _) ?_ List.filter_sublist rfl
    rw [raise_listLaw]
    exact mapEntry_listLaw h k (fun _ => rfl) fun _ a b => ⟨a, b⟩

/-- R182: a change of detail keeps the law. -/
theorem detail_listLaw {s : State} (h : s.listLaw = true) (k : Key) (g : Details → Details) :
    (s.detail k g).listLaw = true := by
  refine mapEntry_listLaw h k (fun e => ?_) fun e a b => ?_
  · split <;> rfl
  · split <;> exact ⟨a, b⟩

/-- R193, R195: recomputing extents and WARN keeps the law. -/
theorem settleList_listLaw {s : State} (h : s.listLaw = true) : s.settleList.listLaw = true := by
  have e : s.extents.listLaw = true := mapEntries_listLaw h (fun _ => rfl) fun _ a b => ⟨a, b⟩
  rcases deriveWarn_cases s.extents with ⟨_, d⟩ | ⟨_, d⟩
  · show s.extents.deriveWarn.listLaw = true
    rw [d]; exact e
  · show s.extents.deriveWarn.listLaw = true
    rw [d]; exact e

/-- R181, R183: a confirmation keeps the law: a key that has an entry is not added again. -/
theorem confirm_listLaw {s : State} (h : s.listLaw = true) (k : Key) (d : Details) (claim : Option Rank) :
    (s.confirm k d claim).listLaw = true := by
  rcases confirm_cases s k d claim with ⟨n, e⟩ | ⟨_, _, _, e⟩ | ⟨_, _, _, e⟩ | ⟨_, _, _, e⟩ <;> rw [e]
  · have fresh : k ∉ s.faults.entries.map Entry.key := by
      intro m
      obtain ⟨x, hx, hk⟩ := List.mem_map.mp m
      have := List.find?_eq_none.mp n x hx
      simp [hk] at this
    rw [listLaw_iff] at h
    obtain ⟨h1, h2, h3, h4⟩ := h
    have add (es : List Entry) (sub : es.Sublist s.faults.entries) (len : es.length < 32) :
        (s.append es (s.newEntry k d claim)).listLaw = true := by
      rw [listLaw_iff, append_faults]
      refine ⟨by simp; omega, ?_, h3, ?_⟩
      · show ((es ++ [s.newEntry k d claim]).map Entry.key).Nodup
        rw [List.map_append, List.nodup_append]
        refine ⟨(sub.map Entry.key).nodup h2, by simp, ?_⟩
        intro a ha b hb
        have hb : b = (s.newEntry k d claim).key := by simpa using hb
        have hb : b = k := hb
        exact fun eq => fresh (hb ▸ eq ▸ (sub.map Entry.key).subset ha)
      · intro x hx
        rcases List.mem_append.mp hx with hx | hx
        · exact h4 x (sub.subset hx)
        · have hx : x = s.newEntry k d claim := by simpa using hx
          subst hx
          exact ⟨Nat.le_refl 1, by show 1 ≤ 255; omega⟩
    rcases makeEntry_cases s (s.newEntry k d claim) with ⟨l, m⟩ | ⟨l, c, m⟩ | ⟨_, _, m⟩ <;> rw [m]
    · exact add _ (List.Sublist.refl _) l
    · obtain ⟨x, hx, hc⟩ := List.any_eq_true.mp c
      refine add _ List.eraseP_sublist ?_
      rw [List.length_eraseP_of_mem hx hc]; omega
    · rw [listLaw_iff]
      exact ⟨h1, h2, Nat.min_le_left _ _, h4⟩
  · exact mapEntry_listLaw h k (fun _ => rfl) fun _ a b => ⟨a, b⟩
  · exact mapEntry_listLaw h k (fun _ => rfl) fun _ a b => ⟨a, b⟩
  · rw [raise_listLaw]
    refine mapEntry_listLaw h k (fun _ => rfl) fun x a b => ?_
    show 1 ≤ min 255 (x.occurrences + 1) ∧ min 255 (x.occurrences + 1) ≤ 255
    omega

end Sys2Proof.Machine
end

