-- ==== Sys2Proof/Laws/Filters.lean ====
section
/-! SUPPORT. What a confirmation filter can do with one applied verdict (R85 to R88), and the law of its counts. -/

namespace Sys2Proof.Machine

/-- R85 to R88: the seven things a filter can do with an applied verdict. -/
theorem take_cases (f : Filter) (e : Evidence) :
    (e.kind = none ∧ f.confirmed = none ∧ f.take e = ({ f with candidate := none, confirm := 0 }, [])) ∨
    (∃ k, e.kind = none ∧ f.confirmed = some k ∧ 4 ≤ f.clear ∧ f.take e = (.start f.n, [.cleared k])) ∨
    (∃ k, e.kind = none ∧ f.confirmed = some k ∧ f.clear < 4 ∧
      f.take e = ({ f with candidate := none, confirm := 0, clear := f.clear + 1 }, [])) ∨
    (∃ k, e.kind = some k ∧ f.confirmed = some k ∧
      (f.take e = (f.hold k e, [.refreshed k]) ∨ f.take e = (f.hold k e, [.detailsChanged k]))) ∨
    (∃ k, e.kind = some k ∧ f.confirmed ≠ some k ∧ f.candidate = some k ∧ 2 ≤ f.confirm ∧
      (f.confirmed = none ∧ f.take e = (f.hold k e, [.confirmed k]) ∨
        ∃ old, f.confirmed = some old ∧ f.take e = (f.hold k e, [.cleared old, .confirmed k]))) ∨
    (∃ k, e.kind = some k ∧ f.confirmed ≠ some k ∧ f.candidate = some k ∧ f.confirm < 2 ∧
      f.take e = ({ f with confirm := f.confirm + 1, clear := if f.confirmed.isSome then 0 else f.clear }, [])) ∨
    (∃ k, e.kind = some k ∧ f.confirmed ≠ some k ∧ f.candidate ≠ some k ∧
      f.take e = ({ f with
        candidate := some k, confirm := 1, clear := if f.confirmed.isSome then 0 else f.clear }, [])) := by
  unfold Filter.take
  cases he : e.kind with
  | none =>
    unfold Filter.takeClean
    cases hc : f.confirmed with
    | none => simp
    | some k =>
      by_cases h : 5 ≤ f.clear + 1
      · simp [h, Filter.release]; omega
      · simp [h]; omega
  | some k =>
    by_cases hc : f.confirmed = some k
    · refine .inr (.inr (.inr (.inl ⟨k, rfl, hc, ?_⟩)))
      simp only [hc, if_true, Filter.refresh]
      split <;> simp
    · simp only [hc, if_false, Filter.test]
      by_cases hk : f.candidate = some k
      · by_cases h : 3 ≤ f.confirm + 1
        · refine .inr (.inr (.inr (.inr (.inl ⟨k, rfl, hc, hk, by omega, ?_⟩))))
          rw [if_pos hk, if_pos h]
          cases hf : f.confirmed with
          | none => exact .inl ⟨rfl, rfl⟩
          | some old => exact .inr ⟨old, rfl, rfl⟩
        · exact .inr (.inr (.inr (.inr (.inr (.inl ⟨k, rfl, hc, hk, by omega, by rw [if_pos hk, if_neg h]⟩)))))
      · exact .inr (.inr (.inr (.inr (.inr (.inr ⟨k, rfl, hc, hk, by rw [if_neg hk]⟩)))))

/-- R83, R88: the law of the counts outlives every applied verdict. -/
theorem take_law {f : Filter} (h : f.law = true) (e : Evidence) : (f.take e).1.law = true := by
  rcases take_cases f e with ⟨_, hc, t⟩ | ⟨k, _, hc, _, t⟩ | ⟨k, _, hc, hn, t⟩ | ⟨k, _, hc, t | t⟩ |
    ⟨k, _, hc, hk, _, ⟨_, t⟩ | ⟨_, _, t⟩⟩ | ⟨k, _, hc, hk, hn, t⟩ | ⟨k, _, hc, hk, t⟩ <;> rw [t]
  · simp [Filter.law, hc] at h ⊢; simp [h]
  · simp [Filter.law, Filter.start]
  · simp [Filter.law, hc] at h ⊢; omega
  · simp [Filter.law, Filter.hold]
  · simp [Filter.law, Filter.hold]
  · simp [Filter.law, Filter.hold]
  · simp [Filter.law, Filter.hold]
  · cases hf : f.confirmed <;> simp_all [Filter.law]
  · cases hf : f.confirmed <;> simp_all [Filter.law]

/-- R83: a filter's start-up values meet its law. -/
theorem start_law (n : Nat) : (Filter.start n).law = true := by simp [Filter.law, Filter.start]

/-- R83: no verdict changes the lamp count a filter reports. -/
theorem take_n (f : Filter) (e : Evidence) : (f.take e).1.n = f.n := by
  rcases take_cases f e with ⟨_, _, t⟩ | ⟨_, _, _, _, t⟩ | ⟨_, _, _, _, t⟩ | ⟨_, _, _, t | t⟩ |
    ⟨_, _, _, _, _, ⟨_, t⟩ | ⟨_, _, t⟩⟩ | ⟨_, _, _, _, _, t⟩ | ⟨_, _, _, _, t⟩ <;> rw [t] <;> rfl

end Sys2Proof.Machine
end

