-- ==== Sys2Proof/Laws/Formats.lean ====
section
/-! SUPPORT. The byte layouts read back: numbers, header fields, codes, stored items. -/

namespace Sys2Proof

/-! ## Numbers and fields -/

theorem bytesLE_length (k v : Nat) : (bytesLE k v).length = k := by
  induction k generalizing v with
  | zero => rfl
  | succ k ih => simp [bytesLE, ih]

/-- R1, R214: bytes least significant first spell their number again. -/
theorem natLE_bytesLE (k v : Nat) : natLE (bytesLE k v) = v % 256 ^ k := by
  induction k generalizing v with
  | zero => simp [bytesLE, natLE, Nat.mod_one]
  | succ k ih =>
    have e : (BitVec.ofNat 8 v).toNat = v % 256 := by simp
    rw [bytesLE, natLE, ih, e, Nat.pow_succ, Nat.mul_comm (256 ^ k) 256, Nat.mod_mul]

/-- R198: the eight bits of a byte, bit 0 first, make that byte. -/
theorem byteOfBits_bits (b : Byte) :
    byteOfBits (b.getLsbD 0) (b.getLsbD 1) (b.getLsbD 2) (b.getLsbD 3) (b.getLsbD 4) (b.getLsbD 5) (b.getLsbD 6)
      (b.getLsbD 7) = b := by
  revert b; decide +kernel

/-- R198: whole bytes shifted bit 0 first are read back, and what follows them is read after them. -/
theorem pdiBytes_append (bytes : List Byte) (bits : List Bool) :
    pdiBytes ((bytes.flatMap fun b => (List.range 8).map b.getLsbD) ++ bits) = bytes ++ pdiBytes bits := by
  induction bytes with
  | nil => rfl
  | cons b bs ih =>
    rw [List.flatMap_cons, List.append_assoc]
    exact congrArg₂ List.cons (byteOfBits_bits b) ih
/-- R117: a field sent most significant bit first is its own reversal. -/
theorem reverse3_reverse3 (v : BitVec 3) : reverse3 (reverse3 v) = v := by revert v; decide

/-- R117: a kind is read back from its code. -/
theorem ofCode_code (k : TKind) : TKind.ofCode k.code = some k := by cases k <;> rfl

/-- R118: telegram payloads are shorter than 256 characters. -/
theorem payloadLength_lt (k : TKind) : k.payloadLength < 256 := by cases k <;> decide

/-- R117: the fields of a header that was formed are read back. -/
theorem header_fields (k : TKind) (rank : BitVec 3) (u h : Bool) :
    headerKind (headerByte k rank u h) = some k ∧ headerRank (headerByte k rank u h) = rank ∧
      headerUnranked (headerByte k rank u h) = u ∧ headerHead (headerByte k rank u h) = h := by
  cases k <;> cases u <;> cases h <;> revert rank <;> decide

/-- R121: characters with recessive stop bits are read as their bytes, and what follows is left. -/
theorem readChars_sound (bs : List Byte) (rest : List RxChar) :
    readChars bs.length (soundChars bs ++ rest) = .ok (bs, rest) := by
  induction bs with
  | nil => rfl
  | cons b bs ih =>
    have e : readChars (bs.length + 1) (⟨b, true⟩ :: (soundChars bs ++ rest)) =
        (match readChars bs.length (soundChars bs ++ rest) with
        | .ok (xs, r) => .ok (b :: xs, r)
        | .error e => .error e) := rfl
    show readChars (bs.length + 1) (⟨b, true⟩ :: (soundChars bs ++ rest)) = _
    rw [e, ih]

namespace Machine

/-! ## Codes and items -/

/-- R217: the function states are read back from their codes. -/
theorem fnState_code (f : FnState) : FnState.ofCode (BitVec.ofNat 2 f.code) = some f := by cases f <;> rfl

/-- R215: load kinds, functions and learn states are read back from their codes. -/
theorem loadKind_code (k : LoadKind) : LoadKind.ofCode (BitVec.ofNat 2 k.code) = k := by cases k <;> rfl

theorem lampFn_code (f : LampFn) : LampFn.ofCode (BitVec.ofNat 3 f.code) = f := by cases f <;> rfl

theorem learnState_code (l : LearnState) : LearnState.ofCode (BitVec.ofNat 2 l.code) = some l := by cases l <;> rfl

theorem attribution_code (a : Option Attribution) : attributionOfCode (BitVec.ofNat 3 (attributionCode a)) = a := by
  cases a with
  | none => rfl
  | some a => cases a <;> rfl

theorem causes_bits (c : Causes) : Causes.ofBits c.toBits = c := by
  obtain ⟨a, b, d, e, f⟩ := c
  cases a <;> cases b <;> cases d <;> cases e <;> cases f <;> decide

/-- R220: what is written with its check byte reads as good or, where every byte is FFh, as erased. -/
theorem withCheck_not_bad (content : List Byte) : itemCondition (withCheck content) ≠ .bad := by
  unfold itemCondition
  have e : (withCheck content).dropLast = content := by simp [withCheck]
  rw [e]
  split
  · simp
  · simp

/-- Eight results of which none is none. -/
theorem eightM_some {α : Type} (f : Circ → Option α) (g : Circ → α) (h : ∀ c, f c = some (g c)) :
    eightM f = some (eight g) := by
  simp [eightM, eight, h]

end Machine

end Sys2Proof
end

