-- ==== Sys2Proof/Laws/Judge.lean ====
section
/-! SUPPORT. What the judgement of a record can do (chapters 3, 4 and 9). -/

namespace Sys2Proof.Machine

/-- R60: a coasting station applies no verdict. -/
theorem applyVerdict_coasting {s : State} (h : s.coasting = true) (c : Circ) (v : Option Verdict) :
    s.applyVerdict c v = s := by
  unfold State.applyVerdict
  cases v with
  | none => rfl
  | some v => exact if_pos h

/-- R46, R74: an applied verdict reaches the filter, and the reference unit where it carries lamp stages. -/
theorem applyVerdict_cases (s : State) (c : Circ) (v : Option Verdict) :
    s.applyVerdict c v = s ∨
    (∃ w, v = some w ∧ s.coasting = false ∧ w.lamp = none ∧ s.applyVerdict c v = s.applyFilter c w) ∨
    (∃ w st, v = some w ∧ s.coasting = false ∧ w.lamp = some st ∧
      s.applyVerdict c v = (s.applyFilter c w).handSample c st.inorm) := by
  unfold State.applyVerdict
  cases v with
  | none => exact .inl rfl
  | some w =>
    cases h : s.coasting with
    | true => exact .inl rfl
    | false =>
      cases g : w.lamp with
      | none => exact .inr (.inl ⟨w, rfl, rfl, g, by simp [g]⟩)
      | some st => exact .inr (.inr ⟨w, st, rfl, rfl, g, by simp [g]⟩)

/-- R91: on a unit an applied verdict changes its circuit's filter alone. -/
theorem applyFilter_unit {s : State} (h : s.isHead = false) (c : Circ) (v : Verdict) :
    s.applyFilter c v = s.setC c { s.circuits[c] with filter := (s.circuits[c].filter.take v.evidence).1 } := by
  unfold State.applyFilter
  have e (k : Circuit) : (s.setC c k).isHead = false := h
  simp [e]

/-- R167: a balance record is formed for a steady function's balance feed and for no other circuit. -/
theorem formBalance_cases (s : State) (c : Circ) (r : Rec) (clean : Bool) :
    s.formBalance c r clean = s ∨
      (s.balanceFeed s.circuits[c].cfg.fn = some c ∧ s.circuits[c].cfg.fn.isTurn = false ∧ r.kind = .window ∧
        s.formBalance c r clean = s.keepBalance s.circuits[c].cfg.fn
          (s.balanceRecord s.circuits[c].cfg.fn clean (meanOf r.sumI r.n))) := by
  unfold State.formBalance
  dsimp only
  split
  next h =>
    simp only [Bool.and_eq_true, decide_eq_true_eq, Bool.not_eq_true', beq_iff_eq] at h
    exact .inr ⟨h.1.1, h.1.2, h.2, rfl⟩
  · exact .inl rfl

/-- R7, R167: a unit forms no balance record. -/
theorem formBalance_unit {s : State} (h : s.isHead = false) (c : Circ) (r : Rec) (clean : Bool) :
    s.formBalance c r clean = s := by
  rcases formBalance_cases s c r clean with e | ⟨e, _⟩
  · exact e
  · simp [State.balanceFeed, h] at e

/-- R84, R171: a thin balance record shows the filter nothing. -/
theorem evidence_thin (why : ThinReason) : (BalanceResult.thin why).evidence = none := rfl

/-- R168: a reason of its own makes the record thin, FEED first. -/
theorem thinReason_feed (s : State) (f : LampFn) : s.thinReason f false = some .feed := rfl

end Sys2Proof.Machine
end

