-- ==== Sys2Proof/Laws/Link.lean ====
section
/-! SUPPORT. What the link controller's operations can do (chapter 7), with the pending set and the spot readings. -/

namespace Sys2Proof.Machine

/-- R119: a measured width that qualifies lies within 12% of its rate's bit time. -/
theorem ofWidth_matches {w : Nat} {r : Rate} (h : Rate.ofWidth w = some r) :
    88 * 1000000000 ≤ 100 * w * r.bps ∧ 100 * w * r.bps ≤ 112 * 1000000000 := by
  have m := List.find?_some h
  simpa [Rate.matches] using m

/-- R119: no width qualifies for two rates. -/
theorem ofWidth_unique {w : Nat} {r : Rate} (lo : 88 * 1000000000 ≤ 100 * w * r.bps)
    (hi : 100 * w * r.bps ≤ 112 * 1000000000) : Rate.ofWidth w = some r := by
  have no (q : Rate) (h : ¬ (88 * 1000000000 ≤ 100 * w * q.bps ∧ 100 * w * q.bps ≤ 112 * 1000000000)) :
      q.matches w = false := by simpa [Rate.matches] using h
  have yes : r.matches w = true := by simp [Rate.matches, lo, hi]
  unfold Rate.ofWidth
  cases r <;> simp only [Rate.bps] at lo hi <;> simp only [List.find?, yes]
  · rw [no .r19200 (by simp only [Rate.bps]; omega)]
  · rw [no .r19200 (by simp only [Rate.bps]; omega), no .r38400 (by simp only [Rate.bps]; omega)]
  · rw [no .r19200 (by simp only [Rate.bps]; omega), no .r38400 (by simp only [Rate.bps]; omega),
      no .r57600 (by simp only [Rate.bps]; omega)]

/-! ## The counts of the line -/

@[simp] theorem recount_gapNs (l : Link) : l.recount.gapNs = 0 := rfl
@[simp] theorem recount_lineNs (l : Link) : l.recount.lineNs = 0 := rfl
@[simp] theorem recount_driverNs (l : Link) : l.recount.driverNs = l.driverNs := rfl
@[simp] theorem recount_tx (l : Link) : l.recount.tx = l.tx := rfl
@[simp] theorem recount_presence (l : Link) : l.recount.presence = l.presence := rfl
@[simp] theorem recount_slots (l : Link) : l.recount.slots = l.slots := rfl
@[simp] theorem recount_receiver (l : Link) : l.recount.receiver = l.receiver := rfl
@[simp] theorem recount_badRun (l : Link) : l.recount.badRun = l.badRun := rfl
@[simp] theorem recount_stuckHold (l : Link) : l.recount.stuckHold = l.stuckHold := rfl

@[simp] theorem letGo_gapNs (l : Link) : l.letGo.gapNs = 0 := rfl
@[simp] theorem letGo_lineNs (l : Link) : l.letGo.lineNs = 0 := rfl
@[simp] theorem letGo_driverNs (l : Link) : l.letGo.driverNs = 0 := rfl
@[simp] theorem letGo_tx (l : Link) : l.letGo.tx = l.tx := rfl
@[simp] theorem letGo_presence (l : Link) : l.letGo.presence = l.presence := rfl
@[simp] theorem letGo_slots (l : Link) : l.letGo.slots = l.slots := rfl
@[simp] theorem letGo_receiver (l : Link) : l.letGo.receiver = l.receiver := rfl
@[simp] theorem letGo_badRun (l : Link) : l.letGo.badRun = l.badRun := rfl
@[simp] theorem letGo_stuckHold (l : Link) : l.letGo.stuckHold = l.stuckHold := rfl

/-- R116, R126, R135: a stretch is measured at the send rate, and before there is one at the strap rate. -/
theorem lineRate_cases (s : State) :
    (∃ r, s.link.presence.sendRate = some r ∧ s.lineRate = r) ∨
      (s.link.presence = .listening ∧ s.lineRate = s.cfg.strapRate) := by
  unfold State.lineRate
  cases h : s.link.presence with
  | listening => exact .inr ⟨rfl, rfl⟩
  | alone r => exact .inl ⟨r, rfl, rfl⟩
  | joined r => exact .inl ⟨r, rfl, rfl⟩

/-- R116, R135: a stretch that has passed a length has lasted it. -/
theorem reached_of_passed {r : Rate} {ns bits : Nat} (h : r.passed ns bits = true) : r.reached ns bits = true := by
  simp only [Rate.passed, Rate.reached, decide_eq_true_eq] at *
  omega

/-- R120, R122: a bad telegram ends in HUNT or adds to the run; presence, slots and transmitter stay. -/
theorem bad_cases (l : Link) (k : Option TKind) :
    (l.receiver = .hunt ∧ l.bad k = l) ∨
    (∃ r p, l.receiver = .verify r p ∧ l.bad k = { l with receiver := .hunt, badRun := 0 }) ∨
    (∃ r, l.receiver = .synced r ∧ 7 ≤ l.badRun ∧
      l.bad k = { l with errors := l.errors.raise k, receiver := .hunt, badRun := 0 }) ∨
    (∃ r, l.receiver = .synced r ∧ l.badRun < 7 ∧
      l.bad k = { l with errors := l.errors.raise k, badRun := l.badRun + 1 }) := by
  unfold Link.bad Link.countError
  cases h : l.receiver with
  | hunt => simp
  | verify r p => exact .inr (.inl ⟨r, p, rfl, rfl⟩)
  | synced r =>
    by_cases g : 8 ≤ l.badRun + 1
    · exact .inr (.inr (.inl ⟨r, rfl, by omega, if_pos g⟩))
    · exact .inr (.inr (.inr ⟨r, rfl, by omega, if_neg g⟩))

/-- R120, R125: a good arrival moves the receiver, the ALONE timer and the presence alone. -/
theorem good_frame (l : Link) (now : Ms) :
    l.good now = { l with
      receiver := (l.good now).receiver, badRun := (l.good now).badRun, aloneAt := (l.good now).aloneAt
      presence := (l.good now).presence } := by
  obtain ⟨receiver, _, _, _, _, _, _, _, _, _, _, _, _⟩ := l
  cases receiver with
  | hunt => rfl
  | verify r p => cases p <;> rfl
  | synced r => rfl

/-- R123, R217: what an arrival does: nothing delivered in HUNT, an error counted out of range, else consumed. -/
theorem arrive_cases {α : Type} (s : State) (k : TKind) (content : Option α) (consume : State → α → State) :
    (s.link.receiver.delivers = false ∧
      s.arrive k content consume = { s with link := (s.link.good s.now).recount }) ∨
    (s.link.receiver.delivers = true ∧ content = none ∧
      s.arrive k content consume = { s with link := (s.link.good s.now).recount.countError (some k) }) ∨
    (∃ c, s.link.receiver.delivers = true ∧ content = some c ∧
      s.arrive k content consume = consume { s with link := (s.link.good s.now).recount } c) := by
  unfold State.arrive
  cases h : s.link.receiver.delivers <;> cases content <;> simp

/-- R129: a telegram of some kind waits exactly while the pending set is not empty. -/
theorem lowest_isSome (p : Slots) : p.lowest.isSome = !p.isEmpty := by
  obtain ⟨a, b, c, d, e⟩ := p
  cases a <;> cases b <;> cases c <;> cases d <;> cases e <;> rfl

/-- R126, R129: an attempt needs a gap of 30 bit times, a send rate, no hold and a transmitter that waits; it keeps the
send rate it began with. -/
theorem attempt_some {s : State} {n : Nat} {a : Attempt} (h : s.attempt n = some a) :
    s.link.presence.sendRate = some a.rate ∧ 30 * 1000000000 ≤ n * a.rate.bps ∧ s.link.stuckHold = false ∧
      s.link.tx.waits = true ∧ a.replaced = false := by
  unfold State.attempt at h
  split at h
  · cases h
  next r e =>
    split at h
    next g =>
      simp only [Bool.and_eq_true, Bool.not_eq_true', State.lineRate, e, Option.getD_some, Rate.reached,
        decide_eq_true_eq] at g
      obtain ⟨⟨g1, g3⟩, g4⟩ := g
      obtain ⟨p, _, rfl⟩ := Option.map_eq_some_iff.mp h
      exact ⟨e, g1, g3, g4, rfl⟩
    · cases h

/-- R130: a line that reads back as sent, and one that differs first at its last bit. -/
theorem lastDiffers_same (sent rest : List Bool) : lastDiffers (sent ++ rest) sent = none := by
  induction sent with
  | nil => cases rest <;> rfl
  | cons b bs ih =>
    cases bs with
    | nil => simp [lastDiffers]
    | cons x xs => simpa [lastDiffers] using ih

/-- R130: the bit that was sent where the line read otherwise. -/
theorem lastDiffers_at (sent rest : List Bool) (b : Bool) : lastDiffers (sent ++ b :: rest) (sent ++ [!b]) = some b := by
  induction sent with
  | nil => cases b <;> rfl
  | cons x xs ih =>
    cases xs with
    | nil => simp [lastDiffers]
    | cons y ys => simpa [lastDiffers] using ih

/-- R133, R134: the guard latches off for good, with an empty pending set, or cuts off and remembers. -/
theorem cut_cases (l : Link) (now : Ms) :
    (latches l.cutRecord now = true ∧
      l.cut now = { l.letGo with tx := .latchedOff, slots := ⟨none, none, none, none, none⟩ }) ∨
    (latches l.cutRecord now = false ∧
      l.cut now = { l.letGo with tx := .cutOff, cutRecord := addCut l.cutRecord now }) := by
  unfold Link.cut
  cases latches l.cutRecord now <;> simp

/-- R133: the record never holds more than two cut-offs. -/
theorem addCut_length {r : List Ms} (h : r.length ≤ 2) (now : Ms) : (addCut r now).length ≤ 2 := by
  unfold addCut
  split
  · simp; omega
  · simp; omega

/-- R210: a READING completes the outstanding query or counts as late. -/
theorem takeReading_cases (s : State) (n : Serial) (tag : BitVec 4) (c : Circ) (d : ReadingData) :
    (∃ q, s.query.outstanding = some q ∧ q.matches tag n c = true ∧ s.takeReading n tag c d = s.completeQuery q d) ∨
      s.takeReading n tag c d = { s with query := { s.query with late := satInc 65535 s.query.late } } := by
  unfold State.takeReading
  cases h : s.query.outstanding with
  | none => exact .inr rfl
  | some q =>
    cases g : q.matches tag n c with
    | true => exact .inl ⟨q, rfl, g, by simp [g]⟩
    | false => exact .inr (by simp [g])

/-- R51: a COMMAND of an eligible sender is a refresh, is accepted, or counts as stale. -/
theorem trackCommand_cases (s : State) (n : Serial) (c : CommandContent) :
    s.trackCommand n c = s.refreshCommand c ∨ s.trackCommand n c = s.acceptCommand n c ∨
      s.trackCommand n c = { s with cmd := { s.cmd with staleTally := satInc 65535 s.cmd.staleTally } } := by
  unfold State.trackCommand
  split
  · split <;> simp
  · cases s.cmd.lastEpoch with
    | none => simp
    | some last =>
      dsimp only
      split
      · simp
      · split <;> simp

end Sys2Proof.Machine
end

