-- ==== Sys2Proof/Laws/Port.lean ====
section
/-! SUPPORT. What the port's operations can do (chapter 11). -/

namespace Sys2Proof.Machine

/-- R198: at a release a frame answered NOT READY is discarded and any other is acted on, once. -/
theorem atRelease_cases (s : State) (act : State → State) :
    (s.port.frame = none ∧ s.atRelease act = s) ∨
    (s.port.frame = some .notReady ∧ s.atRelease act = { s with port := { s.port with frame := none } }) ∨
    (s.port.frame = some .reply ∧ s.atRelease act = act { s with port := ⟨.none, none, s.port.out⟩ }) ∨
    (s.port.frame = some .noRequest ∧ s.atRelease act = act { s with port := ⟨s.port.slot, none, s.port.out⟩ }) := by
  unfold State.atRelease Port.endFrame
  cases h : s.port.frame with
  | none => simp
  | some f => cases f <;> simp

/-- R199: a head's request acts on a head, and a unit answers NOT HEAD. -/
theorem headOnly_cases (act : State → State) (s : State) :
    (s.isHead = true ∧ State.headOnly act s = act s) ∨
      (s.isHead = false ∧ State.headOnly act s = s.reply codeNotHead []) := by
  unfold State.headOnly
  cases s.isHead <;> simp

/-- R201: EVENT takes the oldest event, or replies EMPTY. -/
theorem popEvent_cases (s : State) :
    (s.events = [] ∧ s.popEvent = s.reply codeEmpty []) ∨
      ∃ e rest, s.events = e :: rest ∧ s.popEvent = State.reply { s with events := rest } codeDone e.bytes := by
  unfold State.popEvent
  cases s.events <;> simp

/-- R204: ACK acts on the entry whose index and serial it names, and on no other. -/
theorem ack_cases (s : State) (i : Byte) (n : Serial) :
    (s.faults.entries[i.toNat]? = none ∧ s.ack i n = s.reply codeNoEntry []) ∨
    (∃ e, s.faults.entries[i.toNat]? = some e ∧ e.key.serial ≠ n ∧ s.ack i n = s.reply codeMismatch []) ∨
    (∃ e data, s.faults.entries[i.toNat]? = some e ∧ e.key.serial = n ∧
      s.ack i n = (s.ackAt i.toNat).reply codeDone data) := by
  unfold State.ack
  cases h : s.faults.entries[i.toNat]? with
  | none => simp
  | some e =>
    by_cases g : e.key.serial = n
    · exact .inr (.inr ⟨e, _, rfl, g, if_pos g⟩)
    · exact .inr (.inl ⟨e, rfl, g, if_neg g⟩)

/-- R194: an acknowledgement touches the list and WARN alone. -/
theorem ackAt_frame (s : State) (i : Nat) :
    s.ackAt i = { s with faults := (s.ackAt i).faults, warn := (s.ackAt i).warn } := by
  unfold State.ackAt State.deriveWarn
  dsimp only
  split <;> rfl

/-- R207: LEARN is BUSY, finds NO STATION, or starts. -/
theorem requestLearn_cases (s : State) (a b : Byte) :
    ((s.learnInProgress = true ∨ s.link.slots.learn ≠ none) ∧ s.requestLearn a b = s.reply codeBusy []) ∨
    (s.learnInProgress = false ∧ s.link.slots.learn = none ∧ s.learnTargets a = [] ∧
      s.requestLearn a b = s.reply codeNoStation []) ∨
    (s.learnInProgress = false ∧ s.link.slots.learn = none ∧ s.learnTargets a ≠ [] ∧
      s.requestLearn a b = s.startLearn a b) := by
  unfold State.requestLearn
  cases h : s.learnInProgress <;> cases g : s.link.slots.learn <;> cases k : s.learnTargets a <;> simp

/-- R209: SPOT is BUSY, starts the head's own reading, finds NO STATION, or asks the station. -/
theorem requestSpot_cases (s : State) (r : Rank) (c : Circ) :
    (s.query.outstanding ≠ none ∧ s.requestSpot r c = s.reply codeBusy []) ∨
    (s.query.outstanding = none ∧ r = 0 ∧ ∃ d, s.requestSpot r c =
      ((s.openQuery r s.cfg.serial c).startReading s.query.nextTag c).reply codeAccepted d) ∨
    (s.query.outstanding = none ∧ r ≠ 0 ∧ s.roster.slots[r] = none ∧ s.requestSpot r c = s.reply codeNoStation []) ∨
    (∃ e d, s.query.outstanding = none ∧ r ≠ 0 ∧ s.roster.slots[r] = some e ∧ s.requestSpot r c =
      ((s.openQuery r e.serial c).queueQuery (queryPayload s.query.nextTag r c)).reply codeAccepted d) := by
  unfold State.requestSpot
  cases h : s.query.outstanding with
  | some q => simp
  | none =>
    by_cases g : r = 0
    · exact .inr (.inl ⟨rfl, g, _, if_pos g⟩)
    · cases k : s.roster.slots[r] with
      | none => exact .inr (.inr (.inl ⟨rfl, g, rfl, by simp [g]⟩))
      | some e =>
        exact .inr (.inr (.inr ⟨e, byte1 s.query.nextTag.toNat, rfl, g, rfl, by simp [g]⟩))

/-- R112: STORE CONFIG is TOO LATE, in LOW SUPPLY, or its block waits for the write engine. -/
theorem storeConfig_cases (block : List Byte) (s : State) :
    (10000 ≤ s.count ∧ s.storeConfig block = s.reply codeTooLate []) ∨
    (s.count < 10000 ∧ (s.lowSupply.active && s.cfg.coastMask.lowSupply) = true ∧
      s.storeConfig block = s.reply codeLowSupply []) ∨
    (s.count < 10000 ∧ (s.lowSupply.active && s.cfg.coastMask.lowSupply) = false ∧ s.storeConfig block =
      State.startWrite { s with
        writes := { s.writes with configSlot := some block }, port := { s.port with slot := .inProgress } }) := by
  unfold State.storeConfig
  by_cases h : 10000 ≤ s.count
  · exact .inl ⟨h, if_pos h⟩
  · rw [if_neg h]
    cases g : (s.lowSupply.active && s.cfg.coastMask.lowSupply) with
    | true => exact .inr (.inl ⟨Nat.lt_of_not_le h, rfl, rfl⟩)
    | false => exact .inr (.inr ⟨Nat.lt_of_not_le h, rfl, rfl⟩)

end Sys2Proof.Machine
end

