-- ==== Sys2Proof/Laws/Rank.lean ====
section
/-! SUPPORT. What the rank line's operations can do (chapter 8). -/

namespace Sys2Proof.Machine

/-- R143: a decision keeps the state, or gives a rank from 1 to 7, or UNRANKED (overflow). -/
theorem decide_cases (s : RankState) (v : Nat) :
    s.decide v = s ∨ (∃ r : Rank, r ≠ 0 ∧ v = r.val ∧ s.decide v = .ranked r) ∨
      (v = 8 ∧ s.decide v = .unranked .overflow) := by
  unfold RankState.decide
  by_cases h8 : v = 8
  · simp [h8]
  · rw [if_neg h8]
    by_cases h : v < 8
    · rw [dif_pos h]
      by_cases h0 : v = 0
      · simp [h0]
      · rw [if_neg h0]
        refine .inr (.inl ⟨⟨v, h⟩, fun e => h0 ?_, rfl, rfl⟩)
        exact congrArg Fin.val e
    · simp [h]

/-- R143: the end of a burst closes it and, by a run of three alone, decides the rank state. -/
theorem endBurst_cases (u : RankUnit) (b : FrontBurst) (now : Ms) :
    (b.malformed = true ∧ u.endBurst b now = { u with runValue := none, runLength := 0, openBurst := none }) ∨
    (b.malformed = false ∧ (u.endBurst b now).runValue = some b.count ∧ (u.endBurst b now).silenceAt = some (now + 500) ∧
      (u.endBurst b now).openBurst = none ∧
      ((u.endBurst b now).state = u.state ∨ (u.endBurst b now).state = u.state.decide b.count)) := by
  unfold RankUnit.endBurst
  cases b.malformed with
  | true => exact .inl ⟨rfl, rfl⟩
  | false =>
    refine .inr ⟨rfl, rfl, rfl, rfl, ?_⟩
    have pick {c : Prop} [Decidable c] (x y : RankState) : (if c then x else y) = y ∨ (if c then x else y) = x := by
      by_cases h : c <;> simp [h]
    exact pick _ _

/-- R145, R153: a new rank unit takes effect, and a rank entered empties its slot. -/
theorem setRank_cases (s : State) (u : RankUnit) :
    s.setRank u = { s with rank := u } ∨
      ∃ r, u.state = .ranked r ∧
        s.setRank u = { s with rank := u, roster := { s.roster with slots := put s.roster.slots r none } } := by
  unfold State.setRank State.closeOwnSlot
  split
  · exact .inl rfl
  · cases h : u.state with
    | ranked r => exact .inr ⟨r, rfl, by simp⟩
    | acquiring => exact .inl (by simp)
    | unranked c => exact .inl (by simp)

/-- R141: the count of a burst never passes 8, and a malformed one stays malformed. -/
theorem frontStretch_bound {b : Option FrontBurst} (h : ∀ x, b = some x → x.count ≤ 8) (us t : Nat) :
    ∀ y, frontStretch b us t = some y → y.count ≤ 8 ∧ (∀ x, b = some x → x.malformed = true → y.malformed = true) := by
  intro y e
  unfold frontStretch at e
  split at e
  · exact ⟨h y e, fun x hx m => by rw [hx] at e; cases e; exact m⟩
  · split at e
    · cases b with
      | none => cases e; exact ⟨by simp, fun x hx => by cases hx⟩
      | some x => cases e; exact ⟨Nat.min_le_left _ _, fun z hz m => by cases hz; exact m⟩
    · cases b with
      | none => cases e; exact ⟨by simp, fun x hx => by cases hx⟩
      | some x => cases e; exact ⟨h x rfl, fun z hz m => by cases hz; rfl⟩

/-- R140: a station begins a burst exactly when it is RANKED, of one pulse more than its rank. -/
theorem burstAt_some {s : RankState} {t : Ms} {b : RearBurst} (h : s.burstAt t = some b) :
    ∃ r, s = .ranked r ∧ b = ⟨t, r.val + 1, 0⟩ := by
  cases s with
  | ranked r => exact ⟨r, rfl, by simpa [RankState.burstAt] using h.symm⟩
  | acquiring => cases h
  | unranked c => cases h

end Sys2Proof.Machine
end

