-- ==== Sys2Proof/Laws/Roster.lean ====
section
/-! SUPPORT. What the placement of a STATUS and the expiry of an entry can do to the roster (chapter 8), and what the
head's readers of the roster leave alone. -/

namespace Sys2Proof.Machine

/-- R150: a slot is the destination only of its own claimant, on a slot that is open and empty or its own. -/
theorem destination_slot {s : State} {h : RxHeader} {r : Rank} (d : s.destination h = .slot r) :
    h.serial ≠ s.cfg.serial ∧ claimOf h = some r ∧ s.rank.state ≠ .ranked r ∧
      ∀ e, s.roster.slots[r] = some e → e.serial = h.serial := by
  unfold State.destination at d
  split at d
  · cases d
  next own =>
    cases c : claimOf h with
    | none => simp [c] at d
    | some q =>
      simp only [c] at d
      split at d
      · cases d
      next closed =>
        have open_ (x : Rank) (hx : ¬ s.slotClosed x = true) : s.rank.state ≠ .ranked x := by
          intro e; exact hx (by simp [State.slotClosed, e])
        cases g : s.roster.slots[q] with
        | none =>
          simp only [g, Destination.slot.injEq] at d
          subst d
          exact ⟨own, rfl, open_ _ closed, fun e he => by rw [g] at he; cases he⟩
        | some x =>
          simp only [g] at d
          split at d
          next same =>
            simp only [Destination.slot.injEq] at d
            subst d
            refine ⟨own, rfl, open_ _ closed, fun e he => ?_⟩
            rw [g] at he
            cases he
            exact same
          · cases d

/-- R150: what a STATUS taken into a slot leaves in the roster. -/
theorem intoSlot_spec (x : Roster) (r : Rank) (e : RosterEntry) :
    (x.intoSlot r e).1.slots[r] = some e ∧
      (x.intoSlot r e).1.unplaced = x.unplaced.filter (fun o => o.serial != e.serial) ∧
      ∀ q : Rank, q ≠ r → (x.intoSlot r e).1.slots[q] =
        if (x.slots[q].map RosterEntry.serial) = some e.serial then none else x.slots[q] := by
  refine ⟨put_same _ _ _, rfl, fun q hq => ?_⟩
  show (put (x.slotsWithout e.serial) r (some e))[q] = _
  rw [put_other _ _ hq]
  exact eight_get _ _

/-- R148: ageing writes the age class alone, and leaves an entry whose age class is settled. -/
theorem age_entry (e : RosterEntry) (now : Ms) :
    (∃ a, e.age now = { e with aged := a }) ∧ (e.age now).ages now = false := by
  unfold RosterEntry.age
  split
  · exact ⟨⟨true, rfl⟩, by simp [RosterEntry.ages]⟩
  · exact ⟨⟨e.aged, rfl⟩, by simp_all⟩

/-- R148: one ageing settles the roster, so an idle step after it runs what is due. -/
theorem age_settles (r : Roster) (now : Ms) : (r.age now).ages now = false := by
  simp only [Roster.ages, Bool.or_eq_false_iff, List.any_eq_false, Roster.age, List.mem_map]
  refine ⟨fun i _ => ?_, ?_⟩
  · rw [eight_get]
    cases r.slots[i] <;> simp [(age_entry _ now).2]
  · rintro _ ⟨x, -, rfl⟩
    simp [(age_entry x now).2]

/-- R150, R151: a STATUS for the unplaced list refreshes its entry, joins the list, or is not taken. -/
theorem intoList_cases (x : Roster) (e : RosterEntry) :
    (x.lists e.serial = true ∧ x.intoList e =
      ({ x with unplaced := x.unplaced.map fun o => if o.serial = e.serial then e else o }, .refreshed)) ∨
    (x.lists e.serial = false ∧ x.unplaced.length < 4 ∧
      (x.intoList e).1 = ⟨x.slotsWithout e.serial, x.unplaced ++ [e]⟩ ∧ (x.intoList e).2 ≠ .notTaken) ∨
    (x.lists e.serial = false ∧ 4 ≤ x.unplaced.length ∧ x.intoList e = (x, .notTaken)) := by
  unfold Roster.intoList
  cases h : x.lists e.serial with
  | true => exact .inl ⟨rfl, rfl⟩
  | false =>
    by_cases g : x.unplaced.length < 4
    · refine .inr (.inl ⟨rfl, g, ?_, ?_⟩)
      · simp [g]
      · simp only [Bool.false_eq_true, if_false, g, if_true]
        cases x.slotOf e.serial <;> simp
    · exact .inr (.inr ⟨rfl, by omega, by simp [g]⟩)

/-- R150: a STATUS that is not taken leaves the roster as it stands. -/
theorem place_notTaken {s : State} {h : RxHeader} {rep : Report} (n : (s.place h rep).2 = .notTaken) :
    (s.place h rep).1 = s.roster := by
  unfold State.place at n ⊢
  cases d : s.destination h with
  | slot r =>
    simp only [d] at n
    unfold Roster.intoSlot at n
    cases g : s.roster.slotOf (s.entryFrom h rep false).serial <;> simp only [g] at n <;> split at n <;> cases n
  | unplaced clash =>
    simp only [d] at n ⊢
    rcases intoList_cases s.roster (s.entryFrom h rep clash) with ⟨_, e⟩ | ⟨_, _, _, ne⟩ | ⟨_, _, e⟩
    · rw [e] at n; cases n
    · exact absurd n ne
    · rw [e]

/-- R152: an entry that expires stood at its place and is at least 1500 ms old. -/
theorem expired_spec {s : State} {p : RosterPlace} {e : RosterEntry} (h : s.expired p = some e) :
    e.heard + 1500 ≤ s.now ∧
      (match p with
        | .slot r => s.roster.slots[r] = some e
        | .unplaced i => s.roster.unplaced[i.val]? = some e) := by
  unfold State.expired at h
  cases p with
  | slot r =>
    obtain ⟨a, b⟩ := Option.filter_eq_some_iff.mp h
    exact ⟨by simpa [RosterEntry.isExpired] using b, a⟩
  | unplaced i =>
    obtain ⟨a, b⟩ := Option.filter_eq_some_iff.mp h
    exact ⟨by simpa [RosterEntry.isExpired] using b, a⟩

/-- R156: a unit's STATUS reaches the roster and ROSTER FULL alone. -/
theorem takeStatus_unit {s : State} (h : RxHeader) (rep : Report) (u : s.isHead = false) :
    s.takeStatus h rep = s.rosterStatus h rep := by
  unfold State.takeStatus; simp [u]

/-- R152: so does an expiry on a unit. -/
theorem expireSlot_unit {s : State} (r : Rank) (e : RosterEntry) (u : s.isHead = false) :
    s.expireSlot r e = { s with roster := { s.roster with slots := put s.roster.slots r none } } := by
  unfold State.expireSlot; simp [u]

theorem expireUnplaced_unit {s : State} (i : Nat) (e : RosterEntry) (u : s.isHead = false) :
    s.expireUnplaced i e = { s with roster := { s.roster with unplaced := s.roster.unplaced.eraseIdx i } } := by
  unfold State.expireUnplaced; simp [u]

/-- R161: the walk never looks at the station's own rank or behind it. -/
theorem ahead_lt {r x : Rank} (h : x ∈ ahead r) : x < r := by
  simpa [ahead] using (List.mem_filter.mp (List.mem_reverse.mp h)).2

end Sys2Proof.Machine
end

