-- ==== Sys2Proof/Laws/StartUp.lean ====
section
/-! SUPPORT. What a start-up reset finds in the store (R107, R108, R111) and makes of a circuit word (R5). -/

namespace Sys2Proof.Machine

/-- R111: an item that an interrupted write leaves bad reads as bad, whatever its free bytes are. -/
theorem damagedItem_bad (free len : Nat) : itemCondition (damagedItem free len) = .bad := by
  unfold damagedItem
  dsimp only
  split
  · assumption
  · generalize ((((List.range len).map (Config.damagedByte free)).drop 1).dropLast) = mid
    have flip (b : Byte) : b ^^^ 1#8 ≠ b := by revert b; decide
    have e : (0x00#8 :: (mid ++ [checkByte (0x00#8 :: mid) ^^^ 1#8])).dropLast = 0x00#8 :: mid := by
      rw [← List.cons_append, List.dropLast_concat]
    unfold itemCondition
    rw [e]
    have h : (0x00#8 :: (mid ++ [checkByte (0x00#8 :: mid) ^^^ 1#8])).all (· == 0xFF#8) = false := by simp
    rw [h]
    have g : 0x00#8 :: (mid ++ [checkByte (0x00#8 :: mid) ^^^ 1#8]) ≠ withCheck (0x00#8 :: mid) := by
      intro c
      have : mid ++ [checkByte (0x00#8 :: mid) ^^^ 1#8] = mid ++ [checkByte (0x00#8 :: mid)] := (List.cons.inj c).2
      exact flip _ (List.cons.inj (List.append_cancel_left this)).1
    simp [g]

/-- R111: a reset finds an item being written in its old, its new or a bad condition, and every other item as it was. -/
theorem leftStore_cases (s : State) :
    (s.writes.current = none ∧ s.leftStore = s.store) ∨
    (∃ w, s.writes.current = some w ∧ (s.leftStore = s.store ∨ s.leftStore = s.store.write w.item w.bytes ∨
      ∃ bad, itemCondition bad = .bad ∧ s.leftStore = s.store.write w.item bad)) := by
  unfold State.leftStore
  cases h : s.writes.current with
  | none => exact .inl ⟨rfl, rfl⟩
  | some w =>
    refine .inr ⟨w, rfl, ?_⟩
    dsimp only
    split
    · exact .inl rfl
    · split
      · exact .inr (.inl rfl)
      · exact .inr (.inr ⟨_, damagedItem_bad _ _, rfl⟩)

/-- R5: an effective lamp circuit has 1 to 8 lamps of 1 to 500 units, and any other circuit none. -/
theorem effective_range (role : Role) (w : CircuitCfg) :
    let e := (w.effective role).1
    (e.kind.isLamp = true ∧ role = .unit ∧ 1 ≤ e.n ∧ e.n ≤ 8 ∧ 1 ≤ e.rating ∧ e.rating ≤ 500) ∨
      (e.kind.isLamp = false ∧ e.n = 0 ∧ e.rating = 0 ∧ (e.kind = .feed → role = .head)) := by
  obtain ⟨f, k, n, r⟩ := w
  cases k <;> cases role <;> simp only [CircuitCfg.effective]
  case incandescent.unit =>
    split
    · simp [CircuitCfg.unfit, LoadKind.isLamp]
    · simp [CircuitCfg.clampLamp, LoadKind.isLamp]; omega
  case led.unit =>
    split
    · simp [CircuitCfg.unfit, LoadKind.isLamp]
    · simp [CircuitCfg.clampLamp, LoadKind.isLamp]; omega
  all_goals simp [CircuitCfg.unfit, LoadKind.isLamp]

/-- R108: a reference that is taken from its record lies in the adoption window of a lamp circuit. -/
theorem fromRecord_iref {cfg : CircuitCfg} {bytes : List Byte} {x : Nat}
    (h : (RefUnit.fromRecord cfg bytes).1.iref = some x) : cfg.kind.isLamp = true ∧ cfg.adopts x = true := by
  unfold RefUnit.fromRecord at h
  split at h
  next lamp =>
    cases c : itemCondition bytes with
    | erased => simp [c, RefUnit.unlearned] at h
    | bad => simp [c, RefUnit.unlearned] at h
    | good =>
      simp only [c] at h
      split at h
      next a =>
        have : natLE bytes.dropLast = x := by simpa using h
        exact ⟨lamp, this ▸ a⟩
      · simp [RefUnit.unlearned] at h
  · simp [RefUnit.unlearned] at h

end Sys2Proof.Machine
end

