-- ==== Sys2Proof/Tests/Slice0.lean ====
section
/-! SUPPORT. The model's own tests: ill-formed terms refused, words written out from the spec's layouts, the worked
cases of the spec's chapters, and for every statement with hypotheses a state and operands that meet them. -/

open Sys2Proof Sys2Proof.Machine

namespace Sys2Proof.Tests

/-! ## Stations -/

/-- What a command leaves. -/
def after (i : Instr) (s : State) : State :=
  match exec i s with
  | .next t => t
  | .fault _ => s
  | .refused _ => s

/-- What a step leaves. -/
def stepped (s : State) : State :=
  match step s with
  | .next t => t
  | .fault _ => s
  | .refused _ => s

/-- A unit 52E0A9h whose link is JOINED. -/
def unit : State :=
  { State.reset with
    cfg := ⟨.unit, .r19200, 0x52E0A9#24, .all⟩
    link := { Link.start with receiver := .synced .r19200, presence := .joined .r19200, aloneAt := some 9000 } }

/-- The same unit at rank 2. -/
def ranked : State := { unit with rank := ⟨.ranked 2, some 2, 3, some 500, none⟩ }

/-- A head 4A21C0h whose link is JOINED. -/
def head : State :=
  { unit with
    cfg := ⟨.head, .r19200, 0x4A21C0#24, ⟨false, false, false, false, false⟩⟩
    rank := ⟨.ranked 0, none, 0, none, none⟩
    ring := [⟨0, .replicate 8 .off, 0, false, 0⟩] }

/-- A station at a millisecond count. -/
def atMs (t : Nat) (s : State) : State := { s with ticks := 8 * t }

/-- A station with the converter granted since this clock. -/
def granted (j : Job) (start : Nat) (s : State) : State := { s with conv := { s.conv with grant := some ⟨j, start⟩ } }

/-- A station with a frame in progress that found no request. -/
def framed (s : State) : State := { s with port := { s.port with frame := some .noRequest } }

/-- The worked circuits. -/
def stopLamp : CircuitCfg := ⟨.stop, .incandescent, 4, 88⟩
def tailLamp : CircuitCfg := ⟨.tail, .led, 2, 21⟩
def leftLamp : CircuitCfg := ⟨.leftTurn, .led, 2, 25⟩
def tailFeed : CircuitCfg := ⟨.tail, .feed, 0, 0⟩

/-- A circuit fitted as configured. -/
def fitted (cfg : CircuitCfg) : Circuit := { Circuit.unfitted with cfg := cfg, filter := .start cfg.n }

/-- One ring entry with function f in a state, the others OFF. -/
def ringWith (f : LampFn) (v : FnState) (date : Nat) : RingEntry := ⟨1, put (.replicate 8 .off) f.idx v, 0, false, date⟩

/-- A closed window that was energized throughout. -/
def litWindow (n sumI sumV : Nat) : Rec := ⟨.window, 20500, 20750, true, 0, n, sumI, sumV, none, false⟩

/-- What a STATUS says of a circuit with no fault. -/
def quiet (f : LampFn) (k : LoadKind) (mean : Nat) : CircuitReport := ⟨f, k, true, true, none, 0, none, none, mean, .learned⟩

/-- A report whose circuit C3 is as given, the others NOT FITTED. -/
def reportC3 (x : CircuitReport) : Report :=
  ⟨⟨false, false, false, false, false⟩, some 0, put (.replicate 8 ⟨.aux, .notFitted, false, false, none, 0, none, none, 0,
    .unlearned⟩) 3 x⟩

/-- A roster entry at rank r with that report, heard at a count. -/
def peer (n : Serial) (r : Rank) (heard : Nat) (x : CircuitReport) : RosterEntry :=
  ⟨n, some r, r == 0, false, heard, false, reportC3 x⟩

/-! ## WellFormed: each check refuses a term -/

theorem test_wf_refuses_good_characters_as_bad :
    (Instr.badTelegram (soundChars (telegramChars .learn ⟨0, false, true, 0x4A21C0⟩ [13, 6, 4]))).wf = false ∧
      (Instr.badTelegram [⟨0x54, true⟩]).wf = true := by decide +kernel

theorem test_wf_refuses_known_code : (Instr.unknown 0x0E).wf = false ∧ (Instr.unknown 0x0F).wf = true := by decide

theorem test_wf_refuses_short_and_long_blocks :
    (Instr.storeConfig (List.replicate 27 0)).wf = false ∧ (Instr.storeConfig (List.replicate 29 0)).wf = false ∧
      (Instr.storeConfig (List.replicate 28 0)).wf = true := by decide

theorem test_wf_refuses_readback_of_no_item :
    (Instr.storeWriteEnd (List.replicate 28 0)).wf = false ∧ (Instr.storeWriteEnd [1, 2, 3]).wf = true := by decide

theorem test_wf_refuses_empty_read_back :
    (Instr.yieldLine []).wf = false ∧ (Instr.driveFault []).wf = false ∧ (Instr.driveFault [true]).wf = true := by decide

/-! ## Words written out from chapter 12 and R117 -/

/-- R117: HEAD 1, unranked 0, rank 000, kind 000; HEAD 0, rank 001 and 010 read backwards, kind 100 read backwards. -/
theorem test_header_bits :
    headerByte .command 0 false true = 0b10000000#8 ∧ headerByte .status 1 false false = 0b00100001#8 ∧
      headerByte .status 2 false false = 0b00010001#8 ∧ headerByte .reading 4 false false = 0b00001110#8 ∧
      headerByte .status 0 true false = 0b01000001#8 := by decide

/-- R115: start bit dominant, the eight bits of 55h from bit 0, stop bit recessive. -/
theorem test_character_bits :
    charBits 0x55 = [false, true, false, true, false, true, false, true, false, true] := by decide

/-- R216: epoch 42, STOP and TAIL ON, flash period 798, CRANK clear, FRESH START clear, Vs 24.00 V. -/
theorem test_command_payload_bits :
    CommandContent.decode 0x096000031E00502A#64 =
      some ⟨42, #v[.off, .off, .on, .on, .off, .off, .off, .off], 798, false, false, 2400⟩ := by decide

/-- R216, R217: learn epoch 13, stations 06h, circuits 04h; tag 5, rank 2, circuit 2; tag 16 is out of range. -/
theorem test_learn_and_query_payload_bits :
    learnPayload 13 6 4 = 0x04060D#24 ∧ queryDecode 0x020205#24 = some (5, 2, 2) ∧ queryDecode 0x020210#24 = none ∧
      queryDecode 0x080205#24 = none := by decide

/-- R216: the reading of the worked spot request (chapter 11). -/
theorem test_reading_payload_bits :
    readingDecode 0x0204030D980A7C0B1867200205#104 = some (5, 2, ⟨26400, 2840, 2684, 3480, 3, 4, .learned⟩) := by decide

/-- R216: the worked circuit word of chapter 12. -/
theorem test_status_word_bits :
    CircuitReport.word ⟨.stop, .incandescent, true, true, some .lampPartial, 3, none, none, 2840, .learned⟩ =
      0x58C00D6A#32 := by decide

/-- R217: a function state of 3 and a flash period of 2001 are out of range. -/
theorem test_command_range :
    CommandContent.decode 0x0000000000000300#64 = none ∧ CommandContent.decode 0x00000007D1000000#64 = none ∧
      (CommandContent.decode 0x00000007D0000000#64).isSome = true := by decide

/-- R219: STOP, INCANDESCENT, n = 4, rating 88: 00000 0001011000 0100 01 010. -/
theorem test_circuit_word_bits : wordCfg 0b000000001011000010001010#24 = stopLamp := by decide

/-- R220: the worked reference record. -/
theorem test_reference_record : withCheck (refContent 3480) = [0x98, 0x0D, 0x5A] ∧
    itemCondition [0x98, 0x0D, 0x5A] = .good ∧ itemCondition [0x98, 0x0D, 0x5B] = .bad ∧
    itemCondition [0xFF, 0xFF, 0xFF] = .erased := by decide

/-- R218: requests by their codes. -/
theorem test_request_frames :
    decodeFrame [0x01] = .status ∧ decodeFrame [0x02] = .event ∧ decodeFrame [0x03, 5] = .entry 5 ∧
      decodeFrame [0x04, 1, 0xA9, 0xE0, 0x52] = .ack 1 0x52E0A9 ∧ decodeFrame [0x05] = .ackAll ∧
      decodeFrame [0x06, 0x7F] = .clearFlags 0x7F ∧ decodeFrame [0x07, 6, 4] = .learn 6 4 ∧
      decodeFrame [0x08, 2, 2] = .spot 2 2 ∧ decodeFrame [0x09] = .spotResult ∧ decodeFrame [0x0A, 8] = .roster 8 ∧
      decodeFrame [0x0B, 3] = .localRead 3 ∧ decodeFrame [0x0C] = .tallies ∧ decodeFrame [0x0D] = .restart ∧
      decodeFrame [] = .badFrame := by decide

/-- R121: a dominant stop bit, a wrong sync, a kind of 7, a wrong length and a missing character. -/
theorem test_bad_telegrams :
    rxTest [⟨0x55, true⟩, ⟨0xD2, true⟩, ⟨0x80, false⟩] = .bad .framing none ∧
      rxTest [⟨0x55, true⟩, ⟨0xD3, true⟩] = .bad .sync none ∧
      rxTest [⟨0x55, true⟩, ⟨0xD2, true⟩, ⟨0x87, true⟩] = .bad .kind none ∧
      rxTest (soundChars [0x55, 0xD2, 0x80, 0xC0, 0x21, 0x4A, 9]) = .bad .length (some .command) ∧
      rxTest (soundChars [0x55, 0xD2, 0x80, 0xC0, 0x21, 0x4A, 8, 1]) = .bad .completeness (some .command) := by decide

/-- The lengths of R218: an event is 10 bytes, a FAULT LIST entry 19, a roster entry 47. -/
theorem test_reply_lengths :
    (Event.bytes ⟨.coastBegin, 0⟩).length = 10 ∧
      (head.newEntry (stationKey 0x31B004 .unitSilent) .empty (some 1)).bytes.length = 19 ∧
      ((peer 0x31B004 1 0 (quiet .tail .led 0)).bytes 1).length = 47 := by decide

/-! ## Reset -/

/-- R25: the reset state is what a start-up reset makes of itself. -/
theorem test_reset_is_a_start_up : State.startUp State.reset = State.reset := by decide

/-- R3, R4, R49, R136: a head with a good block of serial 4A21C0h starts with a COMMAND and a STATUS pending. -/
theorem test_start_up_of_a_head :
    let block := bytesLE 3 0x4A21C0 ++ List.replicate 25 0
    let s := State.startUp { State.reset with
      pins := { Pins.low with role := true, rate0 := true }, store := { Store.erased with config := withCheck block } }
    s.cfg = ⟨.head, .r38400, 0x4A21C0, ⟨false, false, false, false, false⟩⟩ ∧ s.link.slots.command.isSome = true ∧
      s.link.slots.status.isSome = true ∧ s.link.tx = .waitGap ∧ s.rank.state = .ranked 0 ∧
      s.flags = Flags.clear := by decide

/-- R5: a FEED on a unit, a lamp count of 9 and a rating of 0. -/
theorem test_effective_circuits :
    CircuitCfg.effective .unit tailFeed = (⟨.tail, .notFitted, 0, 0⟩, true) ∧
      CircuitCfg.effective .unit ⟨.stop, .led, 9, 0⟩ = (⟨.stop, .led, 8, 1⟩, true) ∧
      CircuitCfg.effective .unit stopLamp = (stopLamp, false) ∧
      CircuitCfg.effective .head tailFeed = (tailFeed, false) := by decide

/-! ## Worked cases of the chapters -/

/-- Chapter 1, cases 1 to 6. -/
theorem test_ch1_normalised_currents :
    meanOf 71012 25 = 2840 ∧ meanOf 660000 25 = 26400 ∧ meanOf 2402 4 = 601 ∧
      normalise .incandescent 2840 26400 = 2684 ∧ normalise .incandescent 1750 33500 = 1429 ∧
      normalise .incandescent 1500 18000 = 1706 ∧ normalise .led 600 28000 = 700 ∧ normalise .led 1000 19500 = 813 ∧
      normalise .feed 4120 27500 = 4120 ∧ normalise .led 8190 32000 = 10920 ∧
      normalise .incandescent 8190 18000 = 9316 := by decide

/-- Chapter 1, the stop lamp: the sample stamped 22 crosses and is queued for edge-confirm. -/
theorem test_ch1_crossing_is_queued :
    let s := granted (.scanPair 2) 182 { (unit.setC 2 (fitted stopLamp)) with ticks := 184 }
    let t := after (.pairEnd 2398 4095) s
    t.circuits[(2 : Circ)].pendingSample = some ⟨23980, 8190, 22⟩ ∧ t.circuits[(2 : Circ)].energized = false ∧
      t.conv.grant = some ⟨.confirm 2, 184⟩ := by decide

/-- Chapter 1, the stop lamp: 24010 confirms the on-edge at 22; 26380 drops the falling crossing stamped 152. -/
theorem test_ch1_edge_confirmed_and_dropped :
    let k := { fitted stopLamp with pendingSample := some ⟨23980, 8190, 22⟩ }
    let t := after (.voltageReConversionEnd 2401) (granted (.confirm 2) 184 { (unit.setC 2 k) with ticks := 185 })
    let k2 := { fitted stopLamp with energized := true, lastOn := some 22, pendingSample := some ⟨5200, 10, 152⟩ }
    let t2 := after (.voltageReConversionEnd 2638) (granted (.confirm 2) 1224 { (unit.setC 2 k2) with ticks := 1225 })
    (t.circuits[(2 : Circ)].energized, t.circuits[(2 : Circ)].lastOn, t.circuits[(2 : Circ)].pendingSample) =
        (true, some 22, none) ∧
      (t2.circuits[(2 : Circ)].energized, t2.circuits[(2 : Circ)].lastOn, t2.circuits[(2 : Circ)].glitch) =
        (true, some 22, 1) := by decide

/-- Chapter 2: the fourth period locks at 13192 with 803 and the compare time 14196; the phase of 400 ms has duty 50. -/
theorem test_ch2_lock :
    let t : Tracker := { Tracker.activate (some 9982) true 10000 with window := [800, 810, 800], prevOn := some 12392 }
    let u := t.onEdge 13192 13192
    (Tracker.activate (some 9982) true 10000).silenceAt = some 12000 ∧ u.locked = true ∧ u.pbar = some 803 ∧
      u.compareAt = some 14196 ∧ u.silenceAt = none ∧ formNote 803 400 (some 0) = none ∧
      formNote 1350 540 none = some ⟨true, false, false, 1350, 540, 40⟩ := by decide

/-- Chapter 3, the brake press: the settle intervals around the change at 20131. -/
theorem test_ch3_settle_rule :
    let ring := [ringWith .stop .off 18204, ringWith .stop .on 20131]
    settled ring .stop 19500 19750 = some .off ∧ settled ring .stop 19750 20000 = none ∧
      settled ring .stop 20250 20500 = none ∧ settled ring .stop 20500 20750 = some .on := by decide

/-- Chapter 3, the epochs: 38 after 37 is newer, 35 after 38 is stale. -/
theorem test_ch3_epochs :
    let content (e : Byte) : CommandContent := ⟨e, .replicate 8 .on, 0, false, false, 2400⟩
    let s := atMs 30180 { unit with cmd := ⟨some 37, some 0x4A21C0, some 31000, 0, 0⟩, ring := [ringWith .tail .on 29700] }
    let t := s.trackCommand 0x4A21C0 (content 38)
    t.cmd = ⟨some 38, some 0x4A21C0, some 31180, 0, 24000⟩ ∧ t.ring.length = 2 ∧
      (t.trackCommand 0x4A21C0 (content 35)).cmd.staleTally = 1 := by decide

/-- Chapter 4, cases 1 to 5: the lamp stages. -/
theorem test_ch4_lamp_stages :
    let stages (cfg : CircuitCfg) (iref : Option Nat) (r : Rec) :=
      Circuit.stages { fitted cfg with ref := { RefUnit.unlearned with iref := iref } } r
    stages stopLamp (some 3480) (litWindow 25 71012 660000) = some (some .lampPartial, ⟨2684, 3480, false, 3, 4⟩) ∧
      stages stopLamp none (litWindow 25 71012 660000) = some (some .lampPartial, ⟨2684, 3520, true, 3, 4⟩) ∧
      stages ⟨.fog, .led, 2, 35⟩ none (litWindow 25 15000 700000) = some (none, ⟨700, 700, true, 2, 2⟩) ∧
      stages ⟨.marker, .incandescent, 6, 21⟩ none (litWindow 25 37500 450000) = some (none, ⟨1706, 1260, true, 6, 6⟩) ∧
      stages tailLamp (some 420) (litWindow 25 2100 675000) = some (some .lampOut, ⟨95, 420, false, 0, 2⟩) ∧
      classifyLamp 1900 6 1260 = (some .overload, 6) := by decide

/-- Chapter 4, cases 6 and 7: a clean flash at a wrong rhythm, and a short flash. -/
theorem test_ch4_flashes :
    let r : Rec := ⟨.onPhase, 1000, 1540, true, 1, 50, 22000, 1350000, some ⟨true, false, false, 1350, 540, 40⟩, false⟩
    (fitted leftLamp).flashVerdict r =
        some { Verdict.plain (some .cadence) with
          lamp := some ⟨495, 500, true, 2, 2⟩, findings := ⟨true, false, false, false⟩ } ∧
      (fitted leftLamp).flashVerdict { r with n := 1, note := none } = none := by decide

/-- Chapter 4, the tail harness: three edges under ON are FLICKER, a dark window is NO SUPPLY by the walk. -/
theorem test_ch4_supply_loss :
    let s := atMs 42300 { ranked with roster := ⟨put (.replicate 8 none) 1 (some (peer 0x31B004 1 42000 (quiet .tail .led 400))), []⟩ }
    s.lampVerdict (fitted tailLamp) ⟨.window, 41500, 41750, true, 3, 12, 4776, 324720, none, false⟩ .on =
        some (.plain (some .flicker)) ∧
      s.lampVerdict (fitted tailLamp) ⟨.window, 41750, 42000, false, 0, 0, 0, 0, none, false⟩ .on =
        some { Verdict.plain (some .noSupply) with attribution := some .coupling, front := some 1 } := by decide

/-- Chapter 5, a partial lamp goes out: the eight records. -/
theorem test_ch5_partial_lamp_goes_out :
    let shown (k : FaultKind) (m : Nat) : Evidence := ⟨some k, some m, none, none, none⟩
    let f : Filter := { Filter.start 4 with confirmed := some .lampPartial, m := some 3 }
    let a := f.take (shown .lampPartial 3)
    let b := a.1.take (shown .lampOut 0)
    let c := b.1.take (shown .lampPartial 2)
    let d := (c.1.take (shown .lampOut 0)).1.take (shown .lampOut 0)
    let e := d.1.take (shown .lampOut 0)
    a.2 = [.refreshed .lampPartial] ∧ (b.1.candidate, b.1.confirm) = (some .lampOut, 1) ∧
      c.2 = [.detailsChanged .lampPartial] ∧ (c.1.candidate, c.1.m) = (none, some 2) ∧ d.1.confirm = 2 ∧ d.2 = [] ∧
      e.2 = [.cleared .lampPartial, .confirmed .lampOut] ∧ (e.1.confirmed, e.1.m, e.1.clear) = (some .lampOut, some 0, 0) := by
  decide

/-- Chapter 5, a coupling is re-made: FLICKER costs the clear count, and the fifth clean verdict clears. -/
theorem test_ch5_coupling_is_remade :
    let clean : Evidence := ⟨none, none, none, none, none⟩
    let f : Filter := { Filter.start 2 with
      confirmed := some .noSupply, attribution := some .coupling, front := some 1, clear := 3 }
    let g := (f.take ⟨some .flicker, none, none, none, none⟩).1
    let h := ((((g.take clean).1.take clean).1.take clean).1.take clean).1
    (g.candidate, g.confirm, g.clear) = (some .flicker, 1, 0) ∧ (g.take clean).1.candidate = none ∧ h.clear = 4 ∧
      h.confirmed = some .noSupply ∧ h.take clean = (.start 2, [.cleared .noSupply]) := by decide

/-- Chapter 6, learning a stop circuit: the restart, the agreement and the adopted figure. -/
theorem test_ch6_learning :
    let r (k sum : Nat) : RefUnit := { RefUnit.unlearned with learn := .learning, k := k, sum := sum }
    (r 1 2610).agrees 3470 = false ∧ (r 1 3470).agrees 3488 = true ∧ (r 3 10434).agrees 3491 = true ∧
      (let s := atMs 102550 (unit.setC 2 { fitted stopLamp with ref := r 7 24357 })
      let t := s.handSample 2 3483
      (t.circuits[(2 : Circ)].ref.iref, t.circuits[(2 : Circ)].ref.learn, t.circuits[(2 : Circ)].ref.save) =
          (some 3480, .learned, .writing) ∧
        t.writes.current = some ⟨.reference 2, [0x98, 0x0D, 0x5A], 102560⟩) := by decide

/-- Chapter 6, two failures: 700 lies outside 210..630. -/
theorem test_ch6_out_of_range :
    let k := { fitted ⟨.marker, .led, 2, 21⟩ with ref := { RefUnit.unlearned with
      learn := .learning, iref := some 404, k := 7, sum := 4901 } }
    let t := (unit.setC 4 k).handSample 4 700
    (t.circuits[(4 : Circ)].ref.iref, t.circuits[(4 : Circ)].ref.learn, t.circuits[(4 : Circ)].ref.outcome) =
      (some 404, .learned, .failedOutOfRange) := by decide

/-- Chapter 7: 17.6 µs is 57600, and a bit of 52 µs is 19200. -/
theorem test_ch7_rates :
    Rate.ofWidth 17600 = some .r57600 ∧ Rate.ofWidth 52083 = some .r19200 ∧ Rate.ofWidth 60000 = none := by decide

/-- Chapter 7: three cut-offs within 60000 ms. -/
theorem test_ch7_latched_off :
    let s := atMs 150020 { unit with link := { unit.link with cutRecord := [120400, 121410], tx := .waitGap } }
    (after (.cutOff 625000) s).link.tx = .latchedOff ∧ (after (.cutOff 625000) s).flags.txCutoff = true := by decide

/-- Chapter 9, the leaking tail harness and the backfeed. -/
theorem test_ch9_balance :
    balanceOf 3530 3506 = .clean ⟨3530, 3506, 24, 353⟩ ∧ balanceOf 4120 3506 = .leakage .sink ⟨4120, 3506, 614, 412⟩ ∧
      balanceOf 3100 3506 = .leakage .source ⟨3100, 3506, -406, 310⟩ := by decide

/-- Chapter 10, the depot: the expiry of U3 orphans its CRITICAL entry, which blinks. -/
theorem test_ch10_uncoupling :
    let lampOut : Entry := ⟨⟨0x52E0A9, .lampOut, some 0, some .leftTurn⟩, .critical, .active, true, 1, 4400, some 3, some 3,
      .empty, 0⟩
    let s := atMs 4813730 { head with
      roster := ⟨put (.replicate 8 none) 3 (some (peer 0x52E0A9 3 4812230 (quiet .tail .led 0))), []⟩
      faults := ⟨[lampOut], 0⟩, warn := ⟨.steady, true, none⟩, trainSeconds := 4813 }
    let t := after (.rosterExpiry (.slot 3)) s
    t.faults.entries.map (fun e => (e.key.kind, e.state, e.acked, e.rankConf, e.rankCur)) =
        [(.lampOut, .orphaned, false, some 3, none), (.unitSilent, .active, false, some 3, none)] ∧
      t.warn = ⟨.blink, true, some 4814230⟩ ∧
      t.events.map Event.body = [.stationLost 0x52E0A9, .faultConfirmed 1 0x52E0A9, .faultOrphaned 0 0x52E0A9] := by decide

/-- Chapter 10: ACK of a CLEARED entry removes it. -/
theorem test_ch10_acknowledged :
    let stray : Entry := ⟨⟨0x52E0A9, .stray, some 4, some .marker⟩, .minor, .cleared, false, 1, 3977, some 3, some 3, .empty, 0⟩
    let t := after (.ack 0 0x52E0A9) (framed { head with faults := ⟨[stray], 0⟩ })
    t.faults.entries = [] ∧ t.port.slot = .finished [1, 2, 1, 0] := by decide

/-- Chapter 11, two spot readings: the fourth pair forms 26400, 2840, 2684, 3480, 3 of 4. -/
theorem test_ch11_spot_reading :
    let k := { fitted stopLamp with ref := { RefUnit.unlearned with learn := .learned, iref := some 3480 } }
    k.reading 105600 11360 = ⟨26400, 2840, 2684, 3480, 3, 4, .learned⟩ := by decide

/-- Chapter 11, a learn request: epoch 13, both stations tracked to 90000. -/
theorem test_ch11_learn_request :
    let s := framed (atMs 88000 { head with
      learner := ⟨12, 0, []⟩
      roster := ⟨put (put (.replicate 8 none) 1 (some (peer 0x31B004 1 87900 (quiet .stop .led 0)))) 2
        (some (peer 0x0C7711 2 87900 (quiet .stop .led 0))), []⟩ })
    let t := after (.learn 6 4) s
    t.learner = ⟨13, 4, [⟨0x31B004, false, 90000⟩, ⟨0x0C7711, false, 90000⟩]⟩ ∧
      t.port.slot = .finished [2, 2, 13, 6] ∧ t.link.slots.learn = some 0x04060D := by decide

/-! ## Witnesses: a state and operands that meet the hypotheses of each statement

The name after `test_met_` is the statement's. Where a statement has clauses over one input, each clause has its witness,
at a boundary of its range where it has one. -/

/-- A due row; nothing due, at no millisecond boundary and, on the head, at one; an entry at age 1000 and at age 999. -/
theorem test_met_IdleStepAgesRunsDueRowOrTicks :
    let calm (x : State) := { x with conv := { x.conv with scanDue := 9 }, rear := ⟨false, none, 100⟩ }
    let s := calm State.reset
    let h := calm { head with ticks := 7, pins := { Pins.low with intents := put (.replicate 8 false) 2 true } }
    let e := peer 0x31B004 1 0 (quiet .tail .led 0)
    let listed (n : Nat) := atMs n { unit with roster := ⟨put (.replicate 8 none) 1 (some e), []⟩ }
    State.reset.pending = [] ∧ State.reset.due.head? = some .scanStep ∧ (∀ x ∈ State.reset.roster.entries, x.aged = true) ∧
      (s.pending = [] ∧ s.due = [] ∧ ¬ (s.isHead = true ∧ (s.ticks + 1) % 8 = 0)) ∧
      (h.pending = [] ∧ h.due = [] ∧ h.isHead = true ∧ (h.ticks + 1) % 8 = 0 ∧
        (stepped h).intent.counts[(2 : Fin 8)] = 1) ∧
      ((listed 1000).pending = [] ∧ e ∈ (listed 1000).roster.entries ∧ e.aged = false ∧ e.heard + 1000 ≤ (listed 1000).now ∧
        (stepped (listed 1000)).roster.entries.map RosterEntry.aged = [true]) ∧
      (∀ x ∈ (listed 999).roster.entries, ¬ (x.aged = false ∧ x.heard + 1000 ≤ (listed 999).now)) := by decide

theorem test_met_EveryCommandCompletesAndKeepsQueueAndPins :
    Instr.scanStep ≠ .startUpReset ∧ Instr.scanStep ≠ .restart := by decide

theorem test_met_TelegramCharactersReadBack :
    (encodeTelegram (.learnTelegram ⟨0, false, true, 0x4A21C0⟩ 0x04060D)).map decodeTelegram =
      some (.learnTelegram ⟨0, false, true, 0x4A21C0⟩ 0x04060D) := by decide +kernel

theorem test_met_RequestFramesReadBack :
    (Instr.storeConfig (List.replicate 28 0)).wf = true ∧
      encodeFrame (.storeConfig (List.replicate 28 0)) = some (0x0E :: List.replicate 28 0) ∧
      decodeFrame (0x0E :: List.replicate 27 0) = .badFrame ∧ (0 < 1 ∧ 231 < 29 * 8) := by decide

/-- R198: bit 0 first; CLEAR FLAGS 85h, with bits beyond its length, with one bit too few, and a frame of no bit. -/
theorem test_pdi_bit_order :
    let code := [false, true, true, false, false, false, false, false]
    let mask := [true, false, true, false, false, false, false, true]
    decodePdi (code ++ mask) = .clearFlags 0x85 ∧ decodePdi (code ++ mask ++ [true, true]) = .clearFlags 0x85 ∧
      decodePdi (code ++ mask.take 7) = .badFrame ∧ decodePdi [] = .badFrame := by decide

/-- R217: the first value out of each range, and the last one in it. -/
theorem test_payload_ranges :
    CommandContent.decode 0x00000007D1000000#64 = none ∧ (CommandContent.decode 0x00000007D0000000#64).isSome = true ∧
      CommandContent.decode 0x000000000000C000#64 = none ∧ queryDecode 0x000010#24 = none ∧
      queryDecode 0x08000F#24 = none ∧ (queryDecode 0x07FF0F#24).isSome = true ∧
      readingDecode (3#8 ++ 0#96) = none ∧ readingDecode (2#8 ++ 9#8 ++ 0#88) = none ∧
      (readingDecode (2#8 ++ 8#8 ++ 8#8 ++ 0#80)).isSome = true ∧
      CircuitReport.ofWord 0x00014000#32 0 = none ∧ CircuitReport.ofWord 0x00002400#32 0 = none ∧
      CircuitReport.ofWord 0x000E0000#32 0 = none ∧ CircuitReport.ofWord 0#32 3 = none := by decide

/-- The greatest period, Vs, m, mean, front rank and reading fields. -/
theorem test_met_PayloadsReadBack :
    (let c : CommandContent := ⟨255, .replicate 8 .flashing, 2000, true, true, 65535⟩
    c.period ≤ 2000 ∧ c.vs < 65536 ∧ CommandContent.decode c.encode = some c) ∧
    (let r := reportC3 ⟨.tail, .led, true, true, some .noSupply, 8, some .coupling, some 6, 8190, .learning⟩
    (∀ c : Circ, r.circuits[c].m ≤ 8 ∧ r.circuits[c].mean % 2 = 0 ∧ r.circuits[c].mean ≤ 8190 ∧
      (r.circuits[c].confirmed.all fun k => k.code ≤ 7) = true ∧ (r.circuits[c].attribution ≠ some .coupling → r.circuits[c].front = none)) ∧
      r.circuits[(3 : Circ)].front = some 6 ∧ Report.decode r.encode = some r) ∧
    (let d : ReadingData := ⟨65535, 65535, 65535, 65535, 8, 8, .learned⟩
    d.m ≤ 8 ∧ d.n ≤ 8 ∧ readingDecode (readingPayload 15 7 d) = some (15, 7, d)) := by decide

/-- R24's bounds, and the In of the worked spot reading of chapter 11. -/
theorem test_met_NormalisedCurrentStaysInRange :
    8190 ≤ 8190 ∧ 32000 ≤ 32000 ∧ 0 ≤ 18000 ∧ normalise .incandescent 2840 26400 = 2684 ∧
      normalise .led 8190 32000 = 10920 ∧ normalise .incandescent 8190 0 = 9316 ∧
      normalise .feed 8190 0 = 8190 := by decide

/-- n = 4 and R = 3480: each band at its two ends. -/
theorem test_met_LampVerdictBands :
    1 ≤ 4 ∧ 1 ≤ 3480 ∧ classifyLamp 5221 4 3480 = (some .overload, 4) ∧ classifyLamp 5220 4 3480 = (none, 4) ∧
      classifyLamp 3045 4 3480 = (none, 4) ∧ classifyLamp 3044 4 3480 = (some .lampPartial, 3) ∧
      classifyLamp 435 4 3480 = (some .lampPartial, 1) ∧ classifyLamp 434 4 3480 = (some .lampOut, 0) := by decide

theorem test_met_BalanceResultOfTwoSums :
    3004 ≤ 3004 ∧ 8190 ≤ 8190 ∧ balanceThreshold 3004 = 300 ∧ balanceThreshold 8190 = 819 ∧
      balanceOf 3000 2700 = .clean ⟨3000, 2700, 300, 300⟩ ∧ balanceOf 3000 2699 = .leakage .sink ⟨3000, 2699, 301, 300⟩ ∧
      balanceOf 3000 3300 = .clean ⟨3000, 3300, -300, 300⟩ ∧
      balanceOf 3000 3301 = .leakage .source ⟨3000, 3301, -301, 300⟩ := by decide

/-- A filter with nothing, with STRAY, and with FLICKER confirmed; the clear count at 3 and at 4. -/
theorem test_met_ThreeConfirmFiveClear :
    let e : Evidence := ⟨some .stray, none, none, none, none⟩
    let z : Evidence := ⟨none, none, none, none, none⟩
    let f : Filter := Filter.start 4
    let g (n : Nat) : Filter := { f with confirmed := some .stray, clear := n }
    let flicker : Filter := { f with confirmed := some .flicker }
    z.kind = none ∧ e.kind = some .stray ∧ f.confirmed ≠ some .stray ∧ f.candidate ≠ some .stray ∧ f.confirmed = none ∧
      flicker.confirmed = some .flicker ∧ flicker.candidate ≠ some .stray ∧ (g 0).confirmed = some .stray ∧ (g 0).clear = 0 ∧
      (g 3).clear < 4 ∧ 4 ≤ (g 4).clear ∧ ((g 3).take z).1.clear = 4 ∧ ((g 4).take z).2 = [.cleared .stray] ∧
      (((f.take e).1.take e).1.take e).2 = [.confirmed .stray] ∧
      (((flicker.take e).1.take e).1.take e).2 = [.cleared .flicker, .confirmed .stray] ∧
      ((g 0).take e).2 = [.refreshed .stray] ∧ ((g 0).take { e with m := some 3 }).2 = [.detailsChanged .stray] := by decide

theorem test_met_ClaimOfEveryHeader :
    head.isHead = true ∧ claimOf head.ownHeader = some 0 ∧
      ranked.isHead = false ∧ ranked.rank.state = .ranked 2 ∧ claimOf ranked.ownHeader = some 2 ∧
      claimOf ⟨0, false, false, 1⟩ = none ∧ claimOf ⟨1, false, true, 1⟩ = none ∧ claimOf ⟨1, true, false, 1⟩ = none := by
  decide

/-- A head with a roster, an entry and an event; a unit with a LOCKED tracker that is LEARNING. -/
def busyHead : State :=
  { head with
    pending := [.frameStart]
    roster := ⟨put (.replicate 8 none) 1 (some (peer 0x31B004 1 0 (quiet .tail .led 0))), []⟩
    faults := ⟨[head.newEntry (stationKey 0x31B004 .unitSilent) .empty (some 1)], 0⟩
    warn := ⟨.steady, true, none⟩
    events := [⟨.coastBegin, 0⟩]
    conv := { head.conv with confirmQueue := [2, 5] }
    writes := ⟨[⟨2, 3480⟩, ⟨4, 404⟩], some [], some ⟨.reference 2, [0x98, 0x0D, 0x5A], 10⟩⟩ }

def busyUnit : State :=
  let k := fitted leftLamp
  { (ranked.setC 0 { k with
      tracker := { Tracker.dormant with
        activity := .active, locked := true, window := [800, 800, 800, 800], pbar := some 800, compareAt := some 1000 }
      ref := { RefUnit.unlearned with learn := .learning, iref := some 500, k := 3, sum := 1500 }
      filter := { k.filter with candidate := some .stray, confirm := 2 } }) with pending := [.scanStep] }

theorem test_met_StepKeepsRankAndRosterLaws : busyHead.rankLaw = true ∧ busyUnit.rankLaw = true ∧
    busyHead.rosterLaw = true ∧ busyHead.ageLaw = true ∧ (∃ t, step busyHead = .next t) ∧ ∃ t, step busyUnit = .next t :=
  ⟨by decide, by decide, by decide, by decide, ⟨_, rfl⟩, ⟨_, rfl⟩⟩

theorem test_met_StepKeepsFaultListLaw : busyHead.listLaw = true ∧ ∃ t, step busyHead = .next t := ⟨by decide, ⟨_, rfl⟩⟩

theorem test_met_StepKeepsStationLaws : busyHead.warnLaw = true ∧ busyHead.eventLaw = true ∧
    (State.reset.isSilent = true ∧ State.reset.silenceLaw = true) ∧ busyHead.confirmLaw = true ∧ busyHead.ringLaw = true ∧
    busyHead.writeLaw = true ∧ (∃ t, step State.reset = .next t) ∧ ∃ t, step busyHead = .next t :=
  ⟨by decide, by decide, by decide, by decide, by decide, by decide, ⟨_, rfl⟩, ⟨_, rfl⟩⟩

theorem test_met_StepKeepsCircuitLaws : busyUnit.filterLaw = true ∧ busyUnit.queueLaw = true ∧
    busyUnit.trackerLaw = true ∧ busyUnit.refLaw = true ∧ ∃ t, step busyUnit = .next t :=
  ⟨by decide, by decide, by decide, by decide, ⟨_, rfl⟩⟩

/-- A unit coasts for COMMAND LOST and UNRANKED. -/
theorem test_met_CoastingFreezesFilters : Instr.scanStep ≠ .startUpReset ∧ Instr.scanStep ≠ .restart ∧
    unit.coasting = true ∧ ∃ t, exec .scanStep unit = .next t := ⟨by decide, by decide, by decide, ⟨_, rfl⟩⟩

/-- The staleness timer makes COMMAND LOST, at the end of the holdoff and 1 ms before it. -/
theorem test_met_ChangeQueuesStatus :
    let s (t : Nat) := atMs t { unit with cmd := { unit.cmd with staleAt := some 50 } }
    (s 100).tell.holdoffAt ≤ (s 100).now ∧ (after .stalenessTimer (s 100)).news ≠ (s 100).news ∧
      (s 99).now < (s 99).tell.holdoffAt ∧ (s 99).tell.expiredAt ≠ some (s 99).now ∧ (s 99).tell.clashEnd ≠ some (s 99).now ∧
      (after .stalenessTimer (s 99)).news ≠ (s 99).news := by decide

/-- At the moment of the timer's STATUS; and a head clash that begins, or COMMAND LOST, where another clash ended. -/
theorem test_met_ChangeQueuesStatus_folds :
    let s (e c : Option Nat) (w : Bool) := atMs 99 { unit with
      cmd := { unit.cmd with staleAt := some 50 }, tell := ⟨500, 100, w, e, c⟩
      roster := ⟨put (.replicate 8 none) 0 (some (peer 0x6D0012 0 0 (quiet .tail .feed 0))), []⟩ }
    let clash := Instr.commandTelegram ⟨0, false, true, 0x4A21C0⟩ 0x096000031E00502A#64
    (s none none false).now < (s none none false).tell.holdoffAt ∧
      (after .stalenessTimer (s (some 99) none false)).news ≠ (s (some 99) none false).news ∧
      (after .stalenessTimer (s (some 99) none false)).tell.holdoffAt = 199 ∧ (s none none false).headClashAt = none ∧
      (after clash (s none (some 99) false)).headClashAt ≠ none ∧
      (after clash (s none (some 99) false)).news ≠ (s none (some 99) false).news ∧
      (after clash (s none (some 99) false)).tell.holdoffAt = 199 ∧
      (after clash (s none (some 99) true)).tell.holdoffAt = 100 ∧
      (after .stalenessTimer (s none (some 99) false)).tell = ⟨500, 100, true, none, some 99⟩ := by decide +kernel

/-- A change dated exactly start − 300, and one 1 ms later. -/
theorem test_met_SettledMeansOneValue : 20250 ≤ 20500 ∧
    settled [ringWith .stop .on 19950] .stop 20250 20500 = some .on ∧
    settled [ringWith .stop .on 19951] .stop 20250 20500 = none := by decide

/-- An on-edge with no previous one, at a gap of 2001 ms, with a sliding window, with periods at the edge of 5% of their
mean of 800 and 1 ms beyond it; LOCKED, at the edge of 10% of 800 and 1 ms beyond it, with 1 and with 2 disagreements; an
off-edge without and with a phase, with and without a finding. -/
theorem test_met_CadenceOnEdgesAndNotes :
    let u (w : List Nat) : Tracker := { Tracker.dormant with activity := .active, window := w, prevOn := some 1000 }
    let l (d : Nat) : Tracker := { u [800, 800, 800, 800] with locked := true, pbar := some 800, disagree := d }
    let p (t : Tracker) : Tracker := { t with phaseStart := some 1000 }
    ((u []).locked = false ∧ Tracker.dormant.prevOn = none ∧ (u []).prevOn = some 1000 ∧ (u []).miss = 0 ∧
      2000 < 3001 - 1000 ∧ ((u [7]).onEdge 3001 3001).window = [] ∧ 3000 - 1000 ≤ 2000 ∧ (u [1, 2, 3, 4]).window.length ≤ 4 ∧
      ((u [1, 2, 3, 4]).onEdge 3000 3000).window = [2, 3, 4, 2000]) ∧
    (∀ x ∈ [760, 840, 800, 800], absDiff x 800 * 20 ≤ 800) ∧ ((u [760, 840, 800]).onEdge 1800 1800).locked = true ∧
    (∃ x ∈ [759, 841, 800, 800], 800 < absDiff x 800 * 20) ∧ ((u [759, 841, 800]).onEdge 1800 1800).locked = false ∧
    ((l 0).locked = true ∧ (l 0).pbar = some 800 ∧ absDiff (1880 - 1000) 800 * 10 ≤ 800 ∧
      ((l 1).onEdge 1880 1880).disagree = 0 ∧ (l 1).disagree < 2 ∧ ¬ absDiff (1881 - 1000) 800 * 10 ≤ 800 ∧
      ((l 1).onEdge 1881 1881).disagree = 2 ∧ 2 ≤ (l 2).disagree ∧ ((l 2).onEdge 1881 1881).locked = false ∧
      ((l 0).onEdge 3001 3001).locked = false) ∧
    ((u []).phaseStart = none ∧ (p (u [])).phaseStart = some 1000 ∧ (p (l 0)).phaseStart = some 1000 ∧
      ((p (l 0)).offEdge 1235 none false).latestNote = none ∧ ((p (l 0)).offEdge 1235 none true).latestNote ≠ none ∧
      (p (l 0)).noteAt 1400 none = none ∧ (p (l 0)).noteAt 1239 none = none ∧
      ((p (l 0)).noteAt 1235 none).map CadenceNote.duty = some true ∧
      ((p (l 0)).noteAt 1400 (some 841)).map CadenceNote.mismatch = some true ∧ (p (l 0)).noteAt 1400 (some 840) = none) := by
  decide

theorem test_met_ScanStepIsGrantedOrWaits :
    (let s := granted .supply 0 unit
    s.conv.scanDue ≤ s.ticks ∧ s.conv.scanWaiting = none ∧ s.conv.grant ≠ none) ∧
    (let s := { unit with conv := { Converter.start with confirmQueue := [3] } }
    s.conv.scanDue ≤ s.ticks ∧ s.conv.scanWaiting = none ∧ s.conv.grant = none) ∧
    (let s := { unit with conv := { Converter.start with spotWaiting := true }, spot := ⟨some ⟨5, 2, 1, 0, 0⟩, none⟩ }
    s.conv.scanDue ≤ s.ticks ∧ s.conv.scanWaiting = none ∧ s.conv.confirmQueue = [] ∧ s.spot.reading.isSome = true) ∧
    (unit.conv.scanDue ≤ unit.ticks ∧ unit.conv.scanWaiting = none ∧ unit.conv.grant = none ∧
      unit.conv.confirmQueue = [] ∧ unit.conv.spotWaiting = false) := by decide

/-- A scan pair of circuit 2, and of circuit 0, that ends: NOT FITTED; crossings at 12000 and at 6000; no crossing at
11990; blanked and settled at the two sides of 60 ms. -/
theorem test_met_ScanPairReachesDetectorOrRecord :
    let s (c : Circ) (k : Circuit) := granted (.scanPair c) 480 { (unit.setC c k) with ticks := 482 }
    let lit (q : Nat) := { fitted stopLamp with energized := true, lastOn := some q, opened := some (Rec.open .window 0 true) }
    ((s 2 .unfitted).endedJob = some (.scanPair 2) ∧ (s 2 .unfitted).conv.confirmQueue = [] ∧ (s 2 .unfitted).stamp = 60 ∧
      (s 0 .unfitted).endedJob = some (.scanPair 0)) ∧
    ((after (.pairEnd 1200 0) (s 2 (fitted stopLamp))).conv.grant = some ⟨.confirm 2, 482⟩ ∧
      (after (.pairEnd 600 0) (s 0 (lit 0))).conv.confirmQueue = [0] ∧
      (after (.pairEnd 600 0) (s 0 (lit 0))).conv.grant = some ⟨.supply, 482⟩ ∧
      (after (.pairEnd 1199 0) (s 2 (fitted stopLamp))).circuits[(2 : Circ)] = fitted stopLamp) ∧
    ((after (.pairEnd 2640 1420) (s 2 (lit 1))).circuits[(2 : Circ)] = lit 1 ∧
      (after (.pairEnd 2640 1420) (s 2 (lit 0))).circuits[(2 : Circ)].opened.map Rec.sumI = some 2840) := by decide

/-- 18000 breaks a run; 17990 starts one, holds it for 99 ms, and at 100 ms makes LOW SUPPLY; 19000 for 100 ms ends it. -/
theorem test_met_SupplyReadingMovesLowSupply :
    let s (x : State) (l : LowSupply) := granted .supply 1600 { x with ticks := 1601, lowSupply := l }
    let hd := { head with cfg := { head.cfg with coastMask := .all } }
    (s unit ⟨false, none⟩).endedJob = some .supply ∧ (s unit ⟨false, none⟩).stamp = 200 ∧
      (after (.supplyConversionEnd 1800) (s unit ⟨false, some 150⟩)).lowSupply = ⟨false, none⟩ ∧
      (after (.supplyConversionEnd 1799) (s unit ⟨false, none⟩)).lowSupply = ⟨false, some 200⟩ ∧
      (after (.supplyConversionEnd 1799) (s unit ⟨false, some 101⟩)).lowSupply = ⟨false, some 101⟩ ∧
      (after (.supplyConversionEnd 1799) (s hd ⟨false, some 100⟩)).events = [⟨.coastBegin, 0⟩] ∧
      (after (.supplyConversionEnd 1900) (s hd ⟨true, some 100⟩)).events = [⟨.coastEnd, 0⟩] := by decide

/-- A re-conversion of circuit 2 on a unit: dropped; taken DORMANT; taken ACTIVE as an on-edge and as an
off-edge, with a full queue, and with a record that would end where it starts. -/
theorem test_met_ReConversionTakesOrDropsEdge :
    let s (k : Circuit) := granted (.confirm 2) 400 { (unit.setC 2 k) with ticks := 401 }
    let p : Sample := ⟨12000, 0, 50⟩
    let dark := { fitted leftLamp with pendingSample := some p, opened := some (Rec.open .window 0 false) }
    let active := { dark with tracker := { Tracker.dormant with activity := .active, silenceAt := some 2000 }, opened := none }
    let lit := { active with energized := true, opened := some (Rec.open .onPhase 20 true) }
    (s dark).endedJob = some (.confirm 2) ∧ (s dark).circuits[(2 : Circ)].pendingSample = some p ∧ (s dark).isHead = false ∧
      (after (.voltageReConversionEnd 1199) (s dark)).circuits[(2 : Circ)].glitch = 1 ∧
      (after (.voltageReConversionEnd 1200) (s dark)).circuits[(2 : Circ)].energized = true ∧
      (after (.voltageReConversionEnd 1200) (s active)).circuits[(2 : Circ)].opened = some (Rec.open .onPhase 50 true) ∧
      (after (.voltageReConversionEnd 600) (s lit)).circuits[(2 : Circ)].queue.map Rec.finish = [50] ∧
      (after (.voltageReConversionEnd 600) (s { lit with queue := [Rec.missed 0 1, Rec.missed 1 2] })).circuits[(2 : Circ)].queue.map
        Rec.finish = [2, 50] ∧
      (after (.voltageReConversionEnd 600) (s { lit with opened := some (Rec.open .onPhase 50 true) })).circuits[(2 : Circ)].queue =
        [] := by decide

/-- The third pair, the fourth on a unit with a free and with an occupied READING slot, the fourth on the head, and a
pair of another circuit's reading. -/
theorem test_met_FourSpotPairsFormReading :
    let s (x : State) (n : Nat) := granted (.spotPair 2) 80 { x with ticks := 82, spot := ⟨some ⟨5, 2, n, 0, 0⟩, none⟩ }
    let full := { unit with link := { unit.link with slots := { unit.link.slots with reading := some 0 } } }
    let q : Query := ⟨5, 0, 0x4A21C0, 2, 500⟩
    let hd := { head with query := { head.query with outstanding := some q } }
    (s unit 2).endedJob = some (.spotPair 2) ∧ (s unit 2).spot.reading.map SpotRun.pairs = some 2 ∧
      ((s unit 3).isHead = false ∧ (s unit 3).isSilent = false ∧ (s unit 3).link.slots.reading = none) ∧
      (s full 3).link.slots.reading ≠ none ∧
      (unit.circuits[(2 : Circ)].cfg.kind = .notFitted ∧ stopLamp.kind = .incandescent) ∧
      ((s hd 3).isHead = true ∧ (s hd 3).query.outstanding = some q ∧ q.serial = (s hd 3).cfg.serial ∧
        (s hd 3).events.length < 16) ∧ (3 : Circ) ≠ 2 := by decide

/-- Circuit 0 of a unit with a LOCKED tracker at its compare time: misses 0, 1 lit, 1 dark with room and with a full
queue, and 2. -/
theorem test_met_MissedFlashesCountAndUnlock :
    let k (miss : Nat) (lit : Bool) (q : List Rec) : Circuit := { fitted leftLamp with
      energized := lit, queue := q
      tracker := { Tracker.dormant with
        activity := .active, locked := true, window := [800, 800, 800, 800], pbar := some 800, prevOn := some 0
        compareAt := some 1000, miss := miss } }
    let s (miss : Nat) (lit : Bool) (q : List Rec) := atMs 1000 (unit.setC 0 (k miss lit q))
    let r := Rec.missed 0 1
    ((s 0 false []).isHead = false ∧ (s 0 false []).circuits[(0 : Circ)].tracker.compareAt = some 1000 ∧ (s 0 false []).now = 1000) ∧
      (after (.missedFlash 0) (s 0 false [])).circuits[(0 : Circ)].tracker.compareAt = some 1800 ∧
      (after (.missedFlash 0) (s 1 true [])).circuits[(0 : Circ)].queue = [] ∧
      (after (.missedFlash 0) (s 1 false [r])).circuits[(0 : Circ)].queue = [r, .missed 0 1000] ∧
      (after (.missedFlash 0) (s 1 false [r, r])).circuits[(0 : Circ)].queue = [r, .missed 0 1000] ∧
      (after (.missedFlash 0) (s 2 false [])).circuits[(0 : Circ)].tracker.locked = false := by decide

/-- A silence deadline of a lit and of a dark circuit, the latter with a full queue; a linger end without a record and
with one that starts at the end and 1 ms before it; a window from 250 that ends at 500; an ON-phase record from 0 that ends
at 2000. -/
theorem test_met_TimedRecordsCloseAndOpen :
    let active (lit : Bool) (q : List Rec) : Circuit := { fitted leftLamp with
      energized := lit, queue := q, tracker := { Tracker.dormant with activity := .active, silenceAt := some 2000 } }
    let lingering (o : Option Rec) : Circuit := { fitted leftLamp with
      opened := o, tracker := { Tracker.dormant with activity := .lingering, lingerAt := some 2000 } }
    let s (k : Circuit) := atMs 2000 (unit.setC 0 k)
    let c (i : Instr) (k : Circuit) := (after i (s k)).circuits[(0 : Circ)]
    let r (n : Nat) := Rec.open .onPhase n true
    let w := atMs 500 (unit.setC 2 { fitted stopLamp with opened := some (Rec.open .window 250 false) })
    let o := s { fitted leftLamp with opened := some (r 0) }
    ((active true []).tracker.locked = false ∧ (active true []).tracker.activity = .active ∧
        (active true []).tracker.silenceAt = some 2000 ∧ 2000 ≤ (s (active true [])).now ∧
        (c (.silenceDeadline 0) (active true [])).queue = [] ∧
        (c (.silenceDeadline 0) (active false [])).queue = [.missed 0 2000] ∧
        (c (.silenceDeadline 0) (active false [r 1, r 2])).queue = [r 2, .missed 0 2000]) ∧
      ((lingering none).tracker.lingerAt = some 2000 ∧ (lingering none).tracker.activity = .lingering ∧
        (c (.lingerEnd 0) (lingering none)).tracker = .dormant ∧ (r 2000).start = (s (lingering none)).now ∧
        (c (.lingerEnd 0) (lingering (some (r 2000)))).queue = [] ∧ (r 1999).start ≠ (s (lingering none)).now ∧
        (c (.lingerEnd 0) (lingering (some (r 1999)))).queue.map Rec.finish = [2000]) ∧
      (w.circuits[(2 : Circ)].opened = some (Rec.open .window 250 false) ∧ (250 / 250 + 1) * 250 ≤ w.now ∧
        (after (.windowClose 2) w).circuits[(2 : Circ)].opened = some (Rec.open .window 500 false)) ∧
      (o.circuits[(0 : Circ)].opened = some (r 0) ∧ (r 0).kind = .onPhase ∧ 0 + 2000 ≤ o.now ∧
        (after (.heldOnClose 0) o).circuits[(0 : Circ)].queue.map Rec.heldOn = [true]) := by decide

/-- The record 20500..20750 of circuit 2 at 21050: unsettled, thin, judged while coasting, taken by the filter, and its
lamp sample taken by a LEARNING circuit; with a free and with a busy write engine. -/
theorem test_met_RecordTakenForJudgement :
    let calm := { ranked with cfg := { ranked.cfg with coastMask := ⟨false, false, false, false, false⟩ } }
    let lit (n : Nat) := litWindow n 71012 660000
    let k (r : Rec) : Circuit := { fitted stopLamp with queue := [r], ref := { RefUnit.unlearned with learn := .learning } }
    let s (x : State) (date : Nat) (r : Rec) := atMs 21050 { (x.setC 2 (k r)) with ring := [ringWith .stop .on date] }
    let t (x : State) (date : Nat) (r : Rec) := (after (.takenForJudgement 2) (s x date r)).circuits[(2 : Circ)]
    let kind (c : Circuit) := (c.last.bind LastRecord.verdict).map Verdict.kind
    (s calm 20200 (lit 25)).writeLaw = true ∧ busyHead.writeLaw = true ∧
      (s calm 20200 (lit 25)).circuits[(2 : Circ)].queue = [lit 25] ∧ (lit 25).finish + 300 ≤ (s calm 20200 (lit 25)).now ∧
      (s calm 20200 (lit 25)).coasting = false ∧ (s unit 20200 (lit 25)).coasting = true ∧
      (s calm 20200 (lit 25)).isHead = false ∧ settled [ringWith .stop .on 20201] .stop 20500 20750 = none ∧
      kind (t calm 20201 (lit 25)) = none ∧ kind (t calm 20200 (lit 4)) = none ∧
      kind (t unit 20200 (lit 25)) = some (some .lampPartial) ∧ (t unit 20200 (lit 25)).filter.candidate = none ∧
      (t calm 20200 (lit 25)).filter.candidate = some .lampPartial ∧ (t calm 20200 (lit 25)).ref.sum = 2684 ∧
      (t calm 20200 { lit 25 with initial := false }).ref.sum = 0 := by decide +kernel

/-- Every clause at its boundary: a window of the stop lamp, of a feed and of a circuit not fitted; an ON-phase record of
the left turn lamp and of a feed, with and without findings; a missed flash. -/
theorem test_met_VerdictOfEveryRecord :
    let w (lit : Bool) (edges n vm : Nat) : Rec := ⟨.window, 20500, 20750, lit, edges, n, n * 2840, n * vm, none, false⟩
    let v (cfg : CircuitCfg) (r : Rec) (x : FnState) := (ranked.verdict (fitted cfg) r x).map fun y => (y.kind, y.lamp.isSome)
    let out : CircuitCfg := ⟨.stop, .notFitted, 0, 0⟩
    v out (w true 0 25 27000) .on = none ∧ v stopLamp (w true 0 25 27000) .flashing = none ∧
      v stopLamp (w false 0 0 0) .off = some (none, false) ∧ v stopLamp (w false 0 0 0) .on = some (some .noSupply, false) ∧
      v stopLamp (w false 1 0 0) .off = some (some .stray, false) ∧ v stopLamp (w true 0 0 0) .off = some (some .stray, false) ∧
      v tailFeed (w true 1 25 27000) .on = none ∧ v stopLamp (w true 1 25 27000) .on = none ∧
      v stopLamp (w true 2 25 27000) .on = some (some .flicker, false) ∧ v stopLamp (w true 0 4 27000) .on = none ∧
      v stopLamp (w true 0 5 17999) .on = none ∧ v tailFeed (w true 0 5 18000) .on = some (none, false) ∧
      v stopLamp (w true 0 5 18000) .on = some (none, true) := by
  decide

/-- The same, for ON-phase and missed-flash records. -/
theorem test_met_VerdictOfEveryRecord_phases :
    let p (n vm : Nat) (held : Bool) (note : Option CadenceNote) : Rec :=
      ⟨.onPhase, 20500, 20750, true, 1, n, n * 600, n * vm, note, held⟩
    let note : CadenceNote := ⟨true, false, false, 1350, 540, 40⟩
    let v (cfg : CircuitCfg) (r : Rec) (x : FnState) := (ranked.verdict (fitted cfg) r x).map fun y => (y.kind, y.lamp.isSome)
    v leftLamp (p 9 27000 false none) .on = none ∧ v leftLamp (p 9 27000 false none) .off = some (some .stray, false) ∧
      v tailFeed (p 0 0 false none) .flashing = some (none, false) ∧
      v tailFeed (p 0 0 false (some note)) .flashing = some (some .cadence, false) ∧
      v leftLamp (p 1 27000 false none) .flashing = none ∧
      v leftLamp (p 2 17999 true none) .flashing = some (some .cadence, false) ∧
      v leftLamp (p 2 27000 false none) .flashing = some (none, true) ∧
      v leftLamp (p 2 27000 false (some note)) .flashing = some (some .cadence, true) ∧
      v leftLamp (.missed 1000 2000) .on = none ∧ v leftLamp (.missed 1000 2000) .flashing = some (some .noSupply, false) := by
  decide

/-- A head; a unit without a rank; at rank 2 with nobody ahead, with a FRESH tail lamp lit and dark at rank 1, with one
STALE or of another function, and behind it a head feed that is lit. -/
theorem test_met_SupplyLossIsAttributed :
    let s (e d : Option RosterEntry) := { ranked with roster := ⟨put (put (.replicate 8 none) 1 e) 0 d, []⟩ }
    let lit := peer 0x31B004 1 0 (quiet .tail .led 0)
    let dark := peer 0x31B004 1 0 { quiet .tail .led 0 with energized := false }
    let feed := peer 0x4A21C0 0 0 (quiet .tail .feed 0)
    let turn := peer 0x31B004 1 0 { quiet .leftTurn .led 2 with energized := false }
    head.isHead = true ∧ ranked.isHead = false ∧ (∀ r : Rank, unit.rank.state ≠ .ranked r) ∧ ranked.rank.state = .ranked 2 ∧
      (s none none).attribute .tail = (.unattributed, none) ∧ (s (some lit) none).attribute .tail = (.coupling, some 1) ∧
      (s (some dark) (some feed)).attribute .tail = (.shadowed, none) ∧
      (s (some { dark with aged := true }) (some feed)).attribute .tail = (.coupling, some 0) ∧
      (s (some lit) (some feed)).attribute .fog = (.unattributed, none) ∧
      (s (some turn) none).attribute .leftTurn = (.coupling, some 1) := by decide

/-- The learning of chapter 6: ignored, restarting, accepted, the eighth within 1760..5280 and outside it; adopted with
another circuit's write in progress, with the circuit's own write waiting, and in a free engine. -/
theorem test_met_LampSamplesTeachReference :
    let r (k sum : Nat) : RefUnit := { RefUnit.unlearned with learn := .learning, k := k, sum := sum }
    let s (u : RefUnit) := unit.setC 2 { fitted stopLamp with ref := u }
    let busy (q : List RefWrite) := { s (r 7 24357) with writes := ⟨q, none, some ⟨.reference 4, [1, 2, 3], 10⟩⟩ }
    let c (x : State) := (x.circuits[(2 : Circ)].ref.k, x.circuits[(2 : Circ)].ref.sum, x.circuits[(2 : Circ)].ref.save)
    unit.handSample 2 3480 = unit ∧ (r 0 0).learn = .learning ∧ RefUnit.unlearned.learn ≠ .learning ∧
      absDiff 3470 2610 * 8 > 2610 ∧ c ((s (r 1 2610)).handSample 2 3470) = (1, 3470, .none) ∧
      (r 6 20000).k < 7 ∧ c ((s (r 1 3470)).handSample 2 3488) = (2, 6958, .none) ∧ 7 ≤ (r 7 24357).k ∧
      ((s (r 7 12317)).handSample 2 1760).circuits[(2 : Circ)].ref.iref = some 1760 ∧
      ((s (r 7 12308)).handSample 2 1760).circuits[(2 : Circ)].ref.outcome = .failedOutOfRange ∧
      (s (r 7 24357)).writes = ⟨[], none, none⟩ ∧ ((s (r 7 24357)).handSample 2 3483).writes.current =
        some ⟨.reference 2, [0x98, 0x0D, 0x5A], 10⟩ ∧
      ((busy []).handSample 2 3483).writes.queue = [⟨2, 3480⟩] ∧ c ((busy []).handSample 2 3483) = (0, 0, .waiting) ∧
      ((busy [⟨1, 5⟩, ⟨2, 7⟩, ⟨3, 9⟩]).handSample 2 3483).writes.queue = [⟨1, 5⟩, ⟨2, 3480⟩, ⟨3, 9⟩] := by decide

/-- A unit; a head without a source, with a reported period and without; a LOCKED left turn feed: newly locked, within
20 ms, 21 ms off, and of another source; the ring with room and full. -/
theorem test_met_ReportedPeriodFollowsFeeds :
    let feed (f : LampFn) (p : Nat) : Circuit := { fitted ⟨f, .feed, 0, 0⟩ with
      tracker := { Tracker.dormant with
        activity := .active, locked := true, window := [p, p, p, p], pbar := some p, compareAt := some 9000 } }
    let s (x : State) (last : Option Circ) (n : Nat) := { x with source := ⟨3, 250, n, last⟩ }
    let l := head.setC 4 (feed .leftTurn 680)
    let both := l.setC 1 (feed .rightTurn 700)
    let full := { head with ring := List.replicate 8 (ringWith .tail .on 0) }
    unit.isHead = false ∧ head.isHead = true ∧ head.isSilent = false ∧
      (reevaluatePeriod head (s head (some 4) 680)).source = ⟨4, 250, 0, none⟩ ∧
      (reevaluatePeriod head (s head (some 4) 0)).source = ⟨3, 250, 0, none⟩ ∧
      (reevaluatePeriod head (s l none 0)).source = ⟨4, 250, 680, some 4⟩ ∧
      (reevaluatePeriod l (s l (some 4) 700)).source = ⟨3, 250, 700, some 4⟩ ∧
      (reevaluatePeriod l (s l (some 4) 701)).source = ⟨4, 250, 680, some 4⟩ ∧
      (reevaluatePeriod both (s both (some 1) 700)).source = ⟨4, 250, 680, some 4⟩ ∧
      (reevaluatePeriod head (s l none 680)).source = ⟨3, 250, 680, some 4⟩ ∧
      head.ring.length < 8 ∧ (head.epochChange).ring.length = 2 ∧ full.ring.length = 8 ∧ (full.epochChange).ring.length = 8 := by
  decide

/-- The feed window of chapter 9 on circuit 3 of the head, with each thin reason in its turn. -/
theorem test_met_FeedWindowFormsBalance :
    let r := litWindow 25 103000 687500
    let s (x : State) (r : Rec) (heard : Nat) (judged : Bool) :=
      atMs 21050 { (x.setC 3 { fitted tailFeed with queue := [r] }) with
        ring := [ringWith .tail .on 20200]
        roster := ⟨put (.replicate 8 none) 1 (some { peer 0x31B004 1 heard { quiet .tail .led 3506 with judged := judged } with
          aged := decide (heard ≤ 20050) }), x.roster.unplaced⟩ }
    let filtered (f : Filter) := { head with balance := { head.balance with filters := put (.replicate 8 (.start 0)) 3 f } }
    let one : Entry := head.newEntry ⟨0x4A21C0, .leakage, none, some .tail⟩ { Details.empty with sign := some .source } none
    let rising : Filter := { Filter.start 0 with candidate := some .leakage, confirm := 2 }
    let leaking (n : Nat) : Filter := { Filter.start 0 with confirmed := some .leakage, clear := n, sign := some .source }
    let listed1 (x : State) := { x with faults := ⟨[one], 0⟩, warn := ⟨.steady, true, none⟩ }
    let entries (x : State) (r : Rec) :=
      (after (.takenForJudgement 3) (s x r 21000 true)).faults.entries.map fun e => (e.state, e.details.sign, e.occurrences)
    let listed := { head with roster := ⟨.replicate 8 none, [peer 0x0C7711 2 21000 (quiet .tail .led 0)]⟩ }
    let unlisted := { head with balance := { head.balance with unlistedAt := some 21100 } }
    let clashed := { head with headClashAt := some 21100, cfg := { head.cfg with coastMask := .all } }
    let result (x : State) (r : Rec) (heard : Nat) (judged : Bool) :=
      (after (.takenForJudgement 3) (s x r heard judged)).balance.results[(3 : Circ)].map BalanceRecord.result
    ((s head r 21000 true).isHead = true ∧ (s head r 21000 true).balanceFeed .tail = some 3 ∧ LampFn.tail ≠ .leftTurn ∧
        LampFn.tail ≠ .rightTurn ∧ (s head r 21000 true).circuits[(3 : Circ)].queue = [r] ∧
        r.finish + 300 ≤ (s head r 21000 true).now) ∧
      result head { r with n := 4 } 21000 true = some (.thin .feed) ∧ result clashed r 21000 true = some (.thin .coast) ∧
      result listed r 21000 true = some (.thin .unplaced) ∧ result unlisted r 21000 true = some (.thin .unlisted) ∧
      result head r 20050 true = some (.thin .stale) ∧ result head r 20051 false = some (.thin .unjudged) ∧
      result head r 20051 true = some (.leakage .sink ⟨4120, 3506, 614, 412⟩) ∧
      (head.faults.entryOf one.key = none ∧ head.faults.entries.length < 32 ∧
        entries (filtered rising) r = [(.active, some .sink, 1)]) ∧
      ((leaking 0).sign ≠ some .sink ∧ (listed1 head).faults.entryOf one.key = some one ∧ one.state = .active ∧
        entries (listed1 (filtered (leaking 0))) r = [(.active, some .sink, 1)]) ∧
      ((leaking 4).clear = 4 ∧ entries (listed1 (filtered (leaking 4))) { r with sumI := 25 * 3530 } =
        [(.cleared, some .source, 1)]) := by decide +kernel

/-- The example of R49: STOP asserted at 8030, and the re-send timer at 8280. -/
theorem test_met_IntentChangeIssuesEpoch :
    let s := atMs 8030 { head with
      source := ⟨41, 8250, 0, none⟩
      intent := ⟨put (.replicate 8 false) 3 true, false, put (.replicate 8 0) 2 30, 30⟩ }
    let t := after (.intentDebounce (.int 2)) s
    s.isHead = true ∧ s.isSilent = false ∧ 30 ≤ s.intent.counts[(2 : Fin 8)] ∧ 30 ≤ s.intent.crankCount ∧
      (atMs 8250 s).source.resendAt ≤ (atMs 8250 s).now ∧
      t.source = ⟨42, 8280, 0, none⟩ ∧ t.ring.getLast?.map RingEntry.date = some 8030 ∧
      t.ring.getLast?.map RingEntry.states = some #v[.off, .off, .on, .on, .off, .off, .off, .off] := by decide

theorem test_met_TimersOfTheStation :
    let s := atMs 500 { unit with cmd := { unit.cmd with staleAt := some 500 }, tell := ⟨500, 500, true, none, none⟩ }
    let h := atMs 2000 { head with
      warn := ⟨.blink, true, some 2000⟩, secondAt := 2000, balance := { head.balance with unlistedAt := some 2000 } }
    let l := atMs 2000 State.reset
    (s.tell.statusAt ≤ s.now ∧ s.isSilent = false ∧ (atMs 500 State.reset).isSilent = true ∧
      (atMs 500 State.reset).tell.statusAt ≤ (atMs 500 State.reset).now ∧ s.tell.waiting = true ∧
      s.tell.holdoffAt ≤ s.now ∧ s.isHead = false ∧ s.cmd.staleAt = some 500 ∧
      (after .statusTimer s).tell.statusAt = 1000) ∧
    (h.warn.state = .blink ∧ h.warn.toggleAt = some 2000 ∧ 2000 ≤ h.now ∧ h.isHead = true ∧ h.secondAt ≤ h.now ∧
      h.balance.unlistedAt = some 2000 ∧ l.link.presence = .listening ∧ l.link.aloneAt = some 2000 ∧
      head.warn.state ≠ .blink ∧ unit.isHead = false ∧ unit.link.presence = .joined .r19200 ∧
      (after .aloneTimer l).link.presence = .alone .r19200) := by decide

/-- The end of a unit's head clash, at the end of the holdoff and 1 ms before it. -/
theorem test_met_TimersOfTheStation_clash :
    let s (t : Nat) := atMs t { unit with headClashAt := some 50 }
    (s 100).isHead = false ∧ (s 100).headClashAt = some 50 ∧ 50 ≤ (s 99).now ∧ (s 100).tell.holdoffAt ≤ (s 100).now ∧
      (s 99).now < (s 99).tell.holdoffAt ∧ (s 99).tell.expiredAt ≠ some 99 ∧
      (after .headClashDeadline (s 100)).tell = ⟨600, 200, false, none, some 100⟩ ∧
      (after .headClashDeadline (s 99)).tell = ⟨500, 100, true, none, some 99⟩ := by decide

/-- A COMMAND on the head with no clash and with one, and the clash deadline. -/
theorem test_met_HeadClashOnHead :
    let h : RxHeader := ⟨0, false, true, 0x6D0012⟩
    let p := 0x096000031E00502A#64
    let clashed := atMs 1500 { head with headClashAt := some 1500 }
    head.isHead = true ∧ head.link.receiver.delivers = true ∧ (CommandContent.decode p).isSome = true ∧
      clashed.headClashAt.isSome = true ∧ head.headClashAt = none ∧
      head.faults.entryOf (stationKey head.cfg.serial .headClash) = none ∧ head.faults.entries.length < 32 ∧
      (after (.commandTelegram h p) head).warn.state = .blink ∧ 1500 ≤ clashed.now ∧
      (after .headClashDeadline clashed).headClashAt = none ∧ clashed.isSilent = false ∧
      clashed.tell.holdoffAt ≤ clashed.now ∧
      (after (.commandTelegram h p) (after .headClashDeadline clashed)).tell.waiting = false := by decide

/-- Both ends of the 12% band of 19200, a bad telegram in each receiver state, and the eighth of a run. -/
theorem test_met_ReceiverFindsAndLosesRate :
    let s (r : Receiver) (n : Nat) := { unit with link := { unit.link with receiver := r, badRun := n } }
    let fast (r : Receiver) := { unit with link := { unit.link with receiver := r, presence := .joined .r38400 } }
    let hear (x : State) := (after (.queryTelegram ⟨0, false, true, 0x4A21C0⟩ 0x000010) x).link
    (s .hunt 0).link.receiver = .hunt ∧ 30 * 1000000000 ≤ 260417 * 115200 ∧
      88 * 1000000000 ≤ 100 * 45834 * 19200 ∧ 100 * 58333 * 19200 ≤ 112 * 1000000000 ∧
      (after (.candidateStart 260417 45834 false ⟨0x55, true⟩) (s .hunt 0)).link.receiver = .verify .r19200 false ∧
      (⟨0x55, false⟩ : RxChar) ≠ ⟨0x55, true⟩ ∧ rxTest [⟨0x54, true⟩] = .bad .sync none ∧
      (after (.badTelegram [⟨0x54, true⟩]) (s (.verify .r19200 true) 0)).link.receiver = .hunt ∧
      (after (.badTelegram [⟨0x54, true⟩]) (s (.synced .r19200) 6)).link.badRun = 7 ∧
      (after (.badTelegram [⟨0x54, true⟩]) (s (.synced .r19200) 7)).link.receiver = .hunt ∧
      (after (.badTelegram [⟨0x54, true⟩]) (s (.synced .r19200) 7)).link.errors.unkinded = 1 ∧
      (∀ r : Rate, r ∈ [Rate.r19200, .r38400, .r57600, .r115200] → 100 * 45833 * r.bps < 88 * 1000000000 ∨
        112 * 1000000000 < 100 * 45833 * r.bps) ∧
      (s (.verify .r19200 false) 3).link.receiver ≠ .hunt ∧ (s (.verify .r19200 false) 3).link.presence = .joined .r19200 ∧
      (hear (s (.verify .r19200 false) 3)).receiver = .verify .r19200 true ∧
      (hear (fast (.verify .r19200 true))).receiver = .synced .r19200 ∧
      (hear (fast (.verify .r19200 true))).presence = .joined .r19200 ∧
      (hear (fast (.verify .r115200 true))).presence = .joined .r38400 ∧ (hear (s .hunt 3)).badRun = 3 ∧
      (hear (s (.synced .r19200) 3)).badRun = 0 ∧ queryDecode 0x000010 = none ∧
      (hear (s (.synced .r19200) 3)).errors.query = 1 := by decide

/-- Epoch 42 after none, 42, 41, 171 (127 back), 170 (128 back), and after a restart; not eligible; without HEAD. -/
theorem test_met_CommandOnUnit :
    let p := 0x096000031E00502A#64
    let h : RxHeader := ⟨0, false, true, 0x4A21C0⟩
    let same : RingEntry := ⟨42, #v[.off, .off, .on, .on, .off, .off, .off, .off], 798, false, 10⟩
    let s (last : Byte) (ring : List RingEntry) := atMs 3000 { unit with
      cmd := ⟨some last, some 0x4A21C0, some 3000, 0, 0⟩, ring := ring }
    let other := { unit with roster := ⟨put (.replicate 8 none) 0 (some (peer 0x6D0012 0 0 (quiet .tail .feed 0))), []⟩ }
    let turning := (CommandContent.encode ⟨42, #v[.flashing, .off, .off, .off, .off, .off, .off, .off], 0, false, true, 0⟩)
    unit.isHead = false ∧ unit.link.receiver.delivers = true ∧ (CommandContent.decode p).isSome = true ∧
      unit.roster.slots[(0 : Rank)] = none ∧ unit.cmd.lastSender ≠ some h.serial ∧
      (after (.commandTelegram h p) unit).ring.length = 1 ∧
      (after (.commandTelegram h 0x096002031E00502A#64) (s 42 [same])).ring = [same] ∧
      (after (.commandTelegram h p) (s 42 [])).ring = [] ∧ (after (.commandTelegram h p) (s 41 [])).ring.length = 1 ∧
      (after (.commandTelegram h p) (s 171 [])).ring.length = 1 ∧
      (after (.commandTelegram h p) (s 170 [])).cmd.staleTally = 1 ∧
      (after (.commandTelegram h p) other).headClashAt = some 1500 ∧
      (after (.commandTelegram ⟨0, false, false, 0x4A21C0⟩ p) unit).cmd = unit.cmd ∧
      (let k (a : Activity) := { fitted leftLamp with tracker := { Tracker.dormant with activity := a, lingerAt := some 3500 } }
      let told (p : BitVec 64) (ring : List RingEntry) (a : Activity) :=
        (after (.commandTelegram h p) ((s 41 ring).setC 0 (k a))).circuits[(0 : Circ)].tracker
      leftLamp.kind = .led ∧ (k .dormant).cfg.tracks = true ∧ currentState [ringWith .leftTurn .flashing 10] .leftTurn =
        some .flashing ∧ (told turning [] .dormant).activity = .active ∧
        ((told p [ringWith .leftTurn .flashing 10] .active).activity,
          (told p [ringWith .leftTurn .flashing 10] .active).lingerAt) = (.lingering, some 5000) ∧
        ((told turning [] .lingering).activity, (told turning [] .lingering).silenceAt) = (.active, some 5000)) := by decide

/-- LEFT TURN becomes FLASHING at 3000: a window open since 2900 and since 3000, with no record and with two waiting. -/
theorem test_met_CommandOnUnit_window :
    let turning := (CommandContent.encode ⟨42, #v[.flashing, .off, .off, .off, .off, .off, .off, .off], 0, false, true, 0⟩)
    let w (start : Nat) := Rec.open .window start false
    let r := litWindow 20 0 0
    let k (start : Nat) (q : List Rec) := { fitted leftLamp with opened := some (w start), queue := q }
    let s (start : Nat) (q : List Rec) := (atMs 3000 unit).setC 0 (k start q)
    let left (start : Nat) (q : List Rec) :=
      (after (.commandTelegram ⟨0, false, true, 0x4A21C0⟩ turning) (s start q)).circuits[(0 : Circ)].queue
    (k 2900 []).opened = some (w 2900) ∧ (w 2900).start ≠ (s 2900 []).now ∧ (w 3000).start = (s 3000 []).now ∧
      left 2900 [] = [{ w 2900 with finish := 3000 }] ∧ left 2900 [r, r] = [r, { w 2900 with finish := 3000 }] ∧
      left 3000 [r] = [r] := by decide

/-- The learn request of chapter 6 on a unit at rank 2, its epoch again, and the learn deadline. -/
theorem test_met_LearnStartsAndExpires :
    let h : RxHeader := ⟨0, false, true, 0x4A21C0⟩
    let s := atMs 100012 (ranked.setC 2 (fitted stopLamp))
    let t := after (.learnTelegram h 0x04040C) s
    s.link.receiver.delivers = true ∧ s.isHead = false ∧ s.roster.slots[(0 : Rank)] = none ∧ s.rank.state = .ranked 2 ∧
      s.actedEpoch ≠ some 12 ∧ t.actedEpoch = some 12 ∧ t.circuits[(2 : Circ)].ref.deadline = some 130012 ∧
      (after (.learnTelegram h 0x04040C) { s with actedEpoch := some 12 }).circuits = s.circuits ∧
      t.circuits[(2 : Circ)].ref.learn = .learning ∧ 130012 ≤ (atMs 130012 t).now ∧
      (after (.learnDeadline 2) (atMs 130012 t)).circuits[(2 : Circ)].ref.outcome = .failedNotLit := by decide

/-- QUERY for rank 2 on rank 2 and for rank 3; READING for the outstanding query, for another tag, and on a unit. -/
theorem test_met_QueryAndReadingTelegrams :
    let h : RxHeader := ⟨0, false, true, 0x4A21C0⟩
    let u : RxHeader := ⟨2, false, false, 0x0C7711⟩
    let q : Query := ⟨5, 2, 0x0C7711, 2, 900⟩
    let s := { head with query := { head.query with outstanding := some q } }
    let p := 0x0204030D980A7C0B1867200205#104
    ranked.link.receiver.delivers = true ∧ queryDecode 0x020205#24 = some (5, 2, 2) ∧ ranked.isHead = false ∧
      ranked.rank.state = .ranked 2 ∧ (after (.queryTelegram h 0x020205) ranked).spot.reading = some ⟨5, 2, 0, 0, 0⟩ ∧
      (after (.queryTelegram h 0x020305) ranked).spot.reading = none ∧ (readingDecode p).isSome = true ∧
      (after (.readingTelegram u p) s).query.result = .done q ⟨26400, 2840, 2684, 3480, 3, 4, .learned⟩ ∧
      (after (.readingTelegram u (p + 1)) s).query.late = 1 ∧ (after (.readingTelegram u p) ranked).query = ranked.query := by
  decide

/-- On a unit: a free slot, a slot taken by another, the sender listed already, and a full unplaced list. -/
theorem test_met_StatusPlacement :
    let p := (reportC3 (quiet .tail .led 400)).encode
    let h : RxHeader := ⟨1, false, false, 0x31B004⟩
    let e (n : Serial) := peer n 1 0 (quiet .tail .led 0)
    let taken (l : List RosterEntry) := { unit with roster := ⟨put (.replicate 8 none) 1 (some (e 0x0C7711)), l⟩ }
    let full := [e 1, e 2, e 3, e 4]
    unit.isHead = false ∧ unit.link.receiver.delivers = true ∧ (Report.decode p).isSome = true ∧
      h.serial ≠ unit.cfg.serial ∧ claimOf h = some 1 ∧ unit.rank.state ≠ .ranked 1 ∧
      (after (.statusTelegram h p) unit).roster.serials = [0x31B004] ∧
      (after (.statusTelegram h p) (taken [])).roster.serials = [0x0C7711, 0x31B004] ∧
      ((after (.statusTelegram h p) (taken [e 0x31B004])).roster.unplaced.map RosterEntry.clash) = [true] ∧
      (after (.statusTelegram h p) (taken [e 1, e 2, e 3])).roster.unplaced.length = 4 ∧
      (after (.statusTelegram h p) (taken full)).roster = (taken full).roster ∧
      (after (.statusTelegram h p) (taken full)).flags.rosterFull = true := by decide

/-- On the head: the first STATUS of a station with a fault, and the same STATUS again. -/
theorem test_met_StatusReachesFaultList :
    let x := { quiet .tail .led 400 with confirmed := some .lampOut }
    let h : RxHeader := ⟨1, false, false, 0x31B004⟩
    let s := { head with roster := ⟨put (.replicate 8 none) 1 (some (peer 0x31B004 1 0 x)), []⟩ }
    let t := after (.statusTelegram h (reportC3 x).encode) head
    head.isHead = true ∧ head.link.receiver.delivers = true ∧ Report.decode (reportC3 x).encode = some (reportC3 x) ∧
      h.serial ≠ head.cfg.serial ∧ claimOf h = some 1 ∧ head.rank.state ≠ .ranked 1 ∧ head.learner.tracked = [] ∧
      (∀ r : Rank, head.roster.slots[r] = none) ∧ head.roster.unplaced = [] ∧ head.faults.entries = [] ∧
      t.faults.entries.map (fun e => (e.key.kind, e.key.circuit, e.state)) = [(.lampOut, some 3, .active)] ∧
      t.events.map Event.body = [.stationJoined 0x31B004, .faultConfirmed 0 0x31B004] ∧
      s.roster.slots[(1 : Rank)] = some (peer 0x31B004 1 0 x) ∧
      (∀ r : Rank, r ≠ 1 → (s.roster.slots[r].map RosterEntry.serial) ≠ some h.serial) ∧ s.roster.unplaced = [] ∧
      (after (.statusTelegram h (reportC3 x).encode) s).events = [] := by decide

/-- The same, for a station that returns: UNIT SILENT, an orphan and a CLEARED entry that it reports, an orphan and a CLEARED
entry that it does not. -/
theorem test_met_StatusReachesFaultList_returns :
    let q := { quiet .tail .led 400 with confirmed := some .lampOut }
    let rep := reportC3 q
    let h : RxHeader := ⟨1, false, false, 0x31B004⟩
    let x (c : Circ) (v : EntryState) (a : Bool) : Entry :=
      ⟨⟨0x31B004, .lampOut, some c, some .tail⟩, .major, v, a, 1, 7, some 2, none, .empty, 0⟩
    let silent : Entry := { x 3 .active true with key := stationKey 0x31B004 .unitSilent }
    let s (es : List Entry) := { head with faults := ⟨es, 0⟩ }
    let heard (es : List Entry) := after (.statusTelegram h rep.encode) (s es)
    let shown (es : List Entry) := (heard es).faults.entries.map fun y => (y.state, y.acked, y.occurrences, y.rankCur)
    (s [silent, x 3 .orphaned false]).roster.slots[(1 : Rank)] = none ∧
      (s [silent, x 3 .orphaned false, x 5 .orphaned false, x 6 .cleared false]).listLaw = true ∧
      (s [x 3 .cleared true]).listLaw = true ∧
      (heard [x 3 .orphaned false]).events.map Event.body = [.stationJoined 0x31B004] ∧
      shown [silent, x 3 .orphaned false, x 5 .orphaned false, x 6 .cleared false] =
        [(.active, false, 1, some 1), (.cleared, false, 1, some 1),
          (.cleared, false, 1, some 1)] ∧
      shown [x 3 .cleared true] = [(.active, false, 2, some 1)] ∧
      (s [{ silent with acked := false }]).faults.entryOf silent.key = some { silent with acked := false } := by
  decide +kernel

theorem test_met_StatusReachesFaultList_not_taken :
    let rep := reportC3 (quiet .tail .led 400)
    let h : RxHeader := ⟨1, false, false, 0x31B004⟩
    let p := peer 0x52E0A9 1 0 (quiet .tail .led 400)
    let full := { head with roster := ⟨put (.replicate 8 none) 1 (some p),
      [{ p with serial := 1 }, { p with serial := 2 }, { p with serial := 3 }, { p with serial := 4 }]⟩ }
    full.roster.slots[(1 : Rank)] = some p ∧ p.serial ≠ h.serial ∧ 4 ≤ full.roster.unplaced.length ∧
      (∀ u ∈ full.roster.unplaced, u.serial ≠ h.serial) ∧
      (after (.statusTelegram h rep.encode) full).balance.unlistedAt = some 1500 := by decide

/-- The same, for a later STATUS: a LAMP OUT that turns into a LAMP PARTIAL; a supply loss that begins, ends, and becomes
SHADOWED; a move from slot 2 to slot 1; and a claim to a slot that another serial holds. -/
theorem test_met_StatusReachesFaultList_later :
    let h : RxHeader := ⟨1, false, false, 0x31B004⟩
    let x (k : FaultKind) (a : Option Attribution) : CircuitReport :=
      { quiet .tail .led 400 with confirmed := some k, m := 1, attribution := a, front := a.bind fun y => if y = .coupling then some 0 else none }
    let clean := quiet .tail .led 400
    let entry (k : FaultKind) (c : Option Circ) : Entry := { head.newEntry ⟨0x31B004, k, c, some .tail⟩ .empty none with rankCur := some 1 }
    let at_ (r : Rank) (n : Serial) (y : CircuitReport) (es : List Entry) :=
      { head with roster := ⟨put (.replicate 8 none) r (some (peer n 1 0 y)), []⟩, faults := ⟨es, 0⟩ }
    let told (s : State) (y : CircuitReport) := after (.statusTelegram h (reportC3 y).encode) s
    let shown (s : State) (y : CircuitReport) := (told s y).faults.entries.map fun e => (e.key.kind, e.state, e.details.attribution)
    let s := at_ 1 0x31B004 (x .lampOut none) [entry .lampOut (some 3)]
    s.listLaw = true ∧ s.faults.entries.length ≤ 16 ∧ (s.roster.slots[(1 : Rank)].map RosterEntry.serial) = some h.serial ∧
      shown s (x .lampPartial none) = [(.lampOut, .cleared, none), (.lampPartial, .active, none)] ∧
      shown (at_ 1 0x31B004 clean []) (x .noSupply (some .coupling)) = [(.noSupply, .active, some .coupling)] := by
  decide +kernel

/-- The same, for what ends and what moves. -/
theorem test_met_StatusReachesFaultList_endings :
    let h : RxHeader := ⟨1, false, false, 0x31B004⟩
    let x (k : FaultKind) (a : Option Attribution) : CircuitReport :=
      { quiet .tail .led 400 with confirmed := some k, m := 1, attribution := a, front := a.bind fun y => if y = .coupling then some 0 else none }
    let clean := quiet .tail .led 400
    let entry (k : FaultKind) (c : Option Circ) : Entry := { head.newEntry ⟨0x31B004, k, c, some .tail⟩ .empty none with rankCur := some 1 }
    let at_ (r : Rank) (n : Serial) (y : CircuitReport) (es : List Entry) :=
      { head with roster := ⟨put (.replicate 8 none) r (some (peer n 1 0 y)), []⟩, faults := ⟨es, 0⟩ }
    let told (s : State) (y : CircuitReport) := after (.statusTelegram h (reportC3 y).encode) s
    let shown (s : State) (y : CircuitReport) := (told s y).faults.entries.map fun e => (e.key.kind, e.state, e.details.attribution)
    shown (at_ 1 0x31B004 (x .noSupply (some .coupling)) [entry .noSupply none]) clean = [(.noSupply, .cleared, none)] ∧
      shown (at_ 1 0x31B004 (x .noSupply (some .coupling)) [entry .noSupply none]) (x .noSupply (some .shadowed)) =
        [(.noSupply, .cleared, some .shadowed)] ∧
      shown (at_ 1 0x31B004 clean []) (x .noSupply (some .shadowed)) = [] ∧
      ((at_ 2 0x31B004 clean []).roster.slots[(1 : Rank)] = none ∧
        (told (at_ 2 0x31B004 clean []) clean).events.map Event.body = [.rankChanged 0x31B004]) ∧
      ((at_ 1 0x0C7711 clean []).roster.unplaced.length < 4 ∧
        ((at_ 1 0x0C7711 clean []).roster.slots[(1 : Rank)].map RosterEntry.serial) = some 0x0C7711 ∧
        (at_ 1 0x0C7711 clean []).faults.entryOf (stationKey h.serial .rankClash) = none) := by
  decide +kernel

/-- A key that is new, with room, with a CLEARED entry to evict and in a full list; one listed in each state; and the extent
of a loss with one SHADOWED station behind it. -/
theorem test_met_ListActsOnKeys :
    let k : Key := stationKey 0x31B004 .unitSilent
    let e (st : EntryState) (ack : Bool) : Entry := { head.newEntry k .empty (some 1) with state := st, acked := ack }
    let other (n : Nat) : Entry := head.newEntry (stationKey (BitVec.ofNat 24 n) .rankClash) .empty none
    let full := (List.range 32).map other
    let evicts := { other 40 with state := .cleared } :: (List.range 31).map other
    let s (es : List Entry) := { head with faults := ⟨es, 0⟩ }
    let states (t : State) := t.faults.entries.map fun x => (x.key.kind, x.state, x.occurrences)
    let loss := { head.newEntry ⟨0x31B004, .noSupply, none, some .tail⟩ { Details.empty with attribution := some .tractor } none with
      rankCur := some 1 }
    let behind := peer 0x0C7711 2 0 { quiet .tail .led 0 with confirmed := some .noSupply, attribution := some .shadowed }
    head.isHead = true ∧ head.events.length < 16 ∧ (∀ x ∈ full, x.key ≠ k) ∧ 32 ≤ full.length ∧ 32 ≤ evicts.length ∧
      (∀ x ∈ full, x.state ≠ .cleared) ∧ evicts = [] ++ { other 40 with state := .cleared } :: (List.range 31).map other ∧
      states ((s []).confirm k .empty (some 1)) = [(.unitSilent, .active, 1)] ∧
      ((s evicts).confirm k .empty (some 1)).faults.entries.length = 32 ∧
      ((s full).confirm k .empty (some 1)).faults.overflow = 1 ∧
      states ((s [e .cleared true]).confirm k .empty (some 1)) = [(.unitSilent, .active, 2)] ∧
      states ((s [e .orphaned true]).confirm k .empty (some 1)) = [(.unitSilent, .active, 1)] ∧
      states ((s [e .active true]).clear k) = [] ∧ states ((s [e .active false]).clear k) = [(.unitSilent, .cleared, 1)] ∧
      ({ s [loss] with roster := ⟨put (.replicate 8 none) 2 (some behind), []⟩ }.extents).faults.entries.map Entry.extent = [1] := by
  decide +kernel

/-- An entry of age 1500 in a slot, and in the unplaced list with its CLASH flag, on a unit and on the head. -/
theorem test_met_ExpiryRemovesEntry :
    let e := { peer 0x31B004 1 100 (quiet .tail .led 0) with clash := true }
    let slot (x : State) := atMs 1600 { x with roster := ⟨put (.replicate 8 none) 1 (some e), []⟩ }
    let tracked (x : State) := { x with learner := ⟨1, 4, [⟨e.serial, true, 9⟩]⟩ }
    let list (x : State) := atMs 1600 { x with roster := ⟨.replicate 8 none, [e]⟩ }
    e.heard + 1500 ≤ (slot head).now ∧ (slot head).roster.slots[(1 : Rank)] = some e ∧ (slot unit).isHead = false ∧
      (slot head).isHead = true ∧ (slot head).events = [] ∧
      (slot head).faults.entryOf (stationKey e.serial .unitSilent) = none ∧ (slot head).faults.entries.length < 32 ∧
      e.serial ≠ (slot head).cfg.serial ∧ (after (.rosterExpiry (.slot 1)) (slot unit)).roster.serials = [] ∧
      (after (.rosterExpiry (.slot 1)) (atMs 1599 (slot unit))).roster.serials = [0x31B004] ∧
      (⟨e.serial, true, 9⟩ : Tracked) ∈ (tracked (slot head)).learner.tracked ∧
      (after (.rosterExpiry (.slot 1)) (tracked (slot head))).events.map Event.body =
        [.stationLost e.serial, .faultConfirmed 0 e.serial, .learnDone e.serial .lost] ∧
      (list head).roster.unplaced[0]? = some e ∧ e.clash = true ∧
      (after (.rosterExpiry (.unplaced 0)) (list head)).roster.serials = [] := by decide

/-- The same with a list: an ACTIVE acknowledged LAMP OUT, a CLEARED STRAY, an ORPHANED loss and another station's entry;
and UNIT SILENT there before, ACTIVE and CLEARED. -/
theorem test_met_ExpiryRemovesEntry_orphans :
    let e := peer 0x31B004 1 100 (quiet .tail .led 0)
    let x (n : Serial) (k : FaultKind) (v : EntryState) (a : Bool) : Entry :=
      ⟨⟨n, k, some 3, some .tail⟩, .minor, v, a, 1, 7, some 1, some 1, .empty, 0⟩
    let es := [x 0x31B004 .lampOut .active true, x 0x31B004 .stray .cleared false, x 0x31B004 .noSupply .orphaned false,
      x 0x0C7711 .lampOut .active true]
    let s (es : List Entry) := atMs 1600 { head with roster := ⟨put (.replicate 8 none) 1 (some e), []⟩, faults := ⟨es, 0⟩ }
    let lost (es : List Entry) := after (.rosterExpiry (.slot 1)) (s es)
    let silent (v : EntryState) : Entry :=
      { x 0x31B004 .unitSilent v true with key := stationKey 0x31B004 .unitSilent }
    (s es).listLaw = true ∧ (s es).events = [] ∧ es.length < 32 ∧ (s es).learner.tracked = [] ∧
      (∀ y ∈ es, y.key.serial = e.serial → y.key.kind ≠ .unitSilent) ∧
      (lost es).faults.entries.map (fun y => (y.state, y.acked, y.rankCur)) =
        [(.orphaned, false, none), (.cleared, false, none), (.orphaned, false, none), (.active, true, some 1),
          (.active, false, none)] ∧
      (lost es).events.map Event.body =
        [.stationLost 0x31B004, .faultConfirmed 4 0x31B004, .faultOrphaned 0 0x31B004] ∧
      (s [silent .active]).faults.entryOf (stationKey e.serial .unitSilent) = some (silent .active) ∧
      (s [silent .cleared]).faults.entryOf (stationKey e.serial .unitSilent) = some (silent .cleared) ∧
      (lost [silent .active]).events.map Event.body = [.stationLost 0x31B004] ∧
      (lost [silent .cleared]).faults.entries.map (fun y => (y.state, y.acked, y.occurrences)) = [(.active, false, 2)] := by
  decide

/-- A pending STATUS after 30 bit times of 19200 bit/s and 1 ns short of them; completions with and without replacement,
and a waiting QUERY; a STATUS queued during attempts of its own and of another kind; a slower station heard. -/
theorem test_met_AttemptAndCompletion :
    let sl : Slots := { unit.link.slots with status := some 7 }
    let s := { unit with link := { unit.link with slots := sl, tx := .waitGap } }
    let sending (k : TKind) (r : Bool) := { s with
      link := { s.link with tx := .sending ⟨k, .r38400, [], r⟩ }, query := { s.query with waiting := some 9 } }
    let fast := { sending .status false with
      link := { (sending .status false).link with receiver := .verify .r19200 true, presence := .joined .r38400 } }
    let queued (k : TKind) := (after .statusTimer (atMs 500 (sending k false))).link.tx
    s.link.slots.lowest = some (.status, 7) ∧ 30 * 1000000000 ≤ 1562500 * 19200 ∧ s.link.presence = .joined .r19200 ∧
      s.link.stuckHold = false ∧ s.link.tx = .waitGap ∧ (after (.sendAttempt 1562500) s).link.tx.isSending = true ∧
      (after (.sendAttempt 1562499) s).link.gapNs = 1562499 ∧ (after (.sendAttempt 1562499) s).link.tx = .waitGap ∧
      (after .completion (sending .status true)).link.slots = sl ∧
      (after .completion (sending .status false)).link.tx = .idle ∧
      (after .completion (sending .command false)).link.tx = .waitGap ∧
      validSerial (sending .query false).cfg.serial = true ∧
      (after .completion (sending .query false)).link.slots.query = some 9 ∧
      (atMs 500 (sending .status false)).tell.statusAt ≤ 500 ∧ queued .status = .sending ⟨.status, .r38400, [], true⟩ ∧
      queued .query = .sending ⟨.query, .r38400, [], false⟩ ∧ fast.link.receiver = .verify .r19200 true ∧
      (after (.queryTelegram ⟨1, false, false, 0x31B004⟩ 0) fast).link.presence = .joined .r19200 ∧
      (after (.queryTelegram ⟨1, false, false, 0x31B004⟩ 0) fast).link.tx = .sending ⟨.status, .r38400, [], false⟩ := by
  decide +kernel

/-- The start bit and bit 0 of a rate mark. -/
theorem test_met_ReadBackYieldsOrFaults :
    let s := { unit with link := { unit.link with tx := .sending ⟨.status, .r19200, [0x55], false⟩ } }
    s.link.tx = .sending ⟨.status, .r19200, [0x55], false⟩ ∧ lineBits [0x55] = [] ++ false :: (lineBits [0x55]).drop 1 ∧
      lineBits [0x55] = [false] ++ true :: (lineBits [0x55]).drop 2 ∧
      (after (.yieldLine [false, false]) s).link.tx = .yielded ∧ (after (.driveFault [true]) s).link.driveFaults = 1 ∧
      (after (.yieldLine [false, true]) s).link.tx = s.link.tx := by decide

/-- Bit times of 19200 bit/s: 12 of them and 1 ns less, 24 of them and 1 ns more; the third cut-off at 60000 ms and 1 ms
later. -/
theorem test_met_DriverGuardAndLineMonitor :
    let cut (r : List Nat) := atMs 70000 { unit with link := { unit.link with cutRecord := r } }
    let off := { unit with link := { unit.link with tx := .cutOff } }
    let held := { unit with link := { unit.link with stuckHold := true } }
    unit.link.presence = .joined .r19200 ∧ State.reset.link.presence = .listening ∧ State.reset.cfg.strapRate = .r19200 ∧
      unit.link.tx ≠ .cutOff ∧ unit.link.tx ≠ .latchedOff ∧ unit.link.tx = .idle ∧
      12 * 1000000000 ≤ 625000 * 19200 ∧ 624999 * 19200 < 12 * 1000000000 ∧
      24 * 1000000000 < 1250001 * 19200 ∧ 1250000 * 19200 ≤ 24 * 1000000000 ∧
      (cut [60000]).link.cutRecord.length < 2 ∧ (cut [10000, 60000]).now ≤ 10000 + 60000 ∧
      9999 + 60000 < (cut [9999, 60000]).now ∧ (after (.cutOff 625000) (cut [10000, 60000])).link.tx = .latchedOff ∧
      (after (.cutOff 625000) (cut [9999, 60000])).link.cutRecord = [60000, 70000] ∧
      (after (.cutOff 624999) unit).link.driverNs = 624999 ∧ off.link.tx = .cutOff ∧
      (after (.cutOffRecovery 1000) off).link.tx = .idle ∧ (after (.cutOffRecovery 999) off).link.tx = .cutOff ∧
      (after (.lineStuck 1250001) unit).link.stuckHold = true ∧ (after (.lineStuck 1250000) unit).link.stuckHold = false ∧
      held.link.stuckHold = true ∧ (after (.lineStuckHoldEnd 10) held).link.stuckHold = false ∧
      (after (.lineStuckHoldEnd 9) held).link.stuckHold = true := by decide

theorem test_met_RearBurstsCountTheRank :
    let s (x : State) (b : Option RearBurst) (t : Nat) := atMs t { x with rear := ⟨false, b, 100⟩ }
    (s ranked none 100).rear.next ≤ (s ranked none 100).now ∧ ranked.rank.state = .ranked 2 ∧
      (after .rearBurstStart (s ranked none 100)).rear.burst = some ⟨100, 3, 0⟩ ∧
      (∀ r : Rank, unit.rank.state ≠ .ranked r) ∧ (s unit none 99).now < (s unit none 99).rear.next ∧
      (after .rearPulse (s ranked (some ⟨100, 3, 4⟩) 104)).rear = ⟨true, some ⟨100, 3, 5⟩, 100⟩ ∧
      (after .rearPulse (s ranked (some ⟨100, 3, 5⟩) 105)).rear = ⟨false, none, 100⟩ ∧
      (after .rearPulse (s ranked (some ⟨100, 3, 5⟩) 104)).rear = ⟨false, some ⟨100, 3, 5⟩, 100⟩ := by decide

/-- Stretches at 499, 500, 2000 and 2001 µs; bursts of 3 and of 8 that end at run lengths 1, 2 and 3; silence. -/
theorem test_met_FrontDecidesRank :
    let s (b : FrontBurst) (v : Option Nat) (n : Nat) :=
      { unit with ticks := 840, rank := { unit.rank with runValue := v, runLength := n, openBurst := some b } }
    let b (n : Nat) : FrontBurst := ⟨n, false, 800⟩
    let quiet := atMs 500 unit
    head.isHead = true ∧ unit.isHead = false ∧ unit.rank.openBurst = none ∧
      (after (.frontHighStretch 499) unit).rank.openBurst = none ∧
      (after (.frontHighStretch 500) unit).rank.openBurst = some ⟨1, false, 0⟩ ∧
      (after (.frontHighStretch 2000) (s (b 8) none 0)).rank.openBurst = some ⟨8, false, 840⟩ ∧
      (after (.frontHighStretch 2001) (s (b 3) none 0)).rank.openBurst = some ⟨3, true, 840⟩ ∧
      (s (b 3) none 0).pins.front = false ∧ (b 3).lowFrom + 40 ≤ (s (b 3) none 0).ticks ∧
      (after .burstEnd (s ⟨3, true, 800⟩ (some 3) 2)).rank.runValue = none ∧
      (after .burstEnd (s (b 3) (some 2) 3)).rank.runLength = 1 ∧ (after .burstEnd (s (b 3) (some 3) 1)).rank.runLength = 2 ∧
      (after .burstEnd (s (b 3) (some 3) 2)).rank.state = .ranked 3 ∧
      (after .burstEnd (s (b 8) (some 8) 2)).rank.state = .unranked .overflow ∧
      (after .burstEnd (s (b 3) (some 3) 3)).rank.runLength = 3 ∧
      quiet.rank.silenceAt = some 500 ∧ 500 ≤ quiet.now ∧
      (after .rankSilenceDeadline quiet).rank.state = .unranked .frontSilent := by decide

/-- A tracked station not started at its deadline, a query at its deadline; a STATUS that shows LEARNING, and the next that
shows it no more. -/
theorem test_met_LearnTrackerAndQueryEnd :
    let u : Tracked := ⟨0x0C7711, false, 90000⟩
    let v : Tracked := ⟨0x31B004, true, 90000⟩
    let q : Query := ⟨6, 3, 0x52E0A9, 0, 90000⟩
    let s := atMs 90000 { head with learner := ⟨13, 8, [v, u]⟩, query := { head.query with outstanding := some q } }
    let x (l : LearnState) := { quiet .tail .led 0 with learn := l }
    let h : RxHeader := ⟨1, false, false, 0x31B004⟩
    let lone (started : Bool) (l : LearnState) := { head with
      learner := ⟨13, 8, [{ v with started := started }]⟩
      roster := ⟨put (.replicate 8 none) 1 (some (peer 0x31B004 1 0 (x l))), []⟩ }
    let told (y : State) (l : LearnState) := after (.statusTelegram h (reportC3 (x l)).encode) y
    s.isHead = true ∧ s.events.length < 16 ∧ u ∈ s.learner.tracked ∧ u.started = false ∧ u.deadline ≤ s.now ∧
      (∀ x ∈ s.learner.tracked, x.serial = v.serial → x.started = true) ∧ s.query.outstanding = some q ∧
      q.deadline ≤ s.now ∧ (after (.learnTrackerDeadline 0x0C7711) s).learner.tracked = [v] ∧
      (after .queryDeadline s).query.result = .timeout q ∧
      head.link.receiver.delivers = true ∧ h.serial ≠ head.cfg.serial ∧ claimOf h = some 1 ∧ head.rank.state ≠ .ranked 1 ∧
      (told (lone false .learned) .learning).learner.tracked = [v] ∧
      (told (lone true .learning) .learning).learner.tracked = [v] ∧
      (told (lone true .learned) .learned).learner.tracked = [] ∧
      (told (lone true .learned) .learned).events.map Event.body = [.learnDone 0x31B004 .done] := by decide

/-- The three reply slots at the start of a frame, and the three frames at its end. -/
theorem test_met_FramesAndRefusedFrames :
    let slot (x : ReplySlot) := { unit with port := ⟨x, none, []⟩ }
    let frame (x : FrameStart) := { unit with port := ⟨.inProgress, some x, []⟩ }
    (slot .none).port.frame = none ∧ (slot (.finished [1])).port.slot = .finished [1] ∧
      (slot .inProgress).port.slot = .inProgress ∧ (frame .reply).port.frame = some .reply ∧
      (frame .noRequest).port.frame = some .noRequest ∧ (frame .notReady).port.frame = some .notReady ∧
      (after .frameStart (slot .none)).port.out = [0x11] ∧ (after .frameStart (slot .inProgress)).port.out = [0x10] ∧
      (let out := { (frame .reply).port with out := [0x12, 0] }
      out.frame = some .reply ∧ out.out[1 / 8]? = some 0x12 ∧ out.pdo 1 = some true ∧ out.out.length ≤ 16 / 8 ∧
        out.pdo 16 = some false) ∧
      (after .badFrame (frame .reply)).port.slot = .finished [0x12, 0] ∧
      (after .status (frame .notReady)).port = ⟨.inProgress, none, []⟩ := by decide

theorem test_met_ReadingRequestsReply :
    let e := head.newEntry (stationKey 0x31B004 .unitSilent) .empty (some 1)
    let s := framed { head with faults := ⟨[e], 0⟩ }
    s.port.frame = some .noRequest ∧ s.isHead = true ∧ s.faults.entries[(0 : Byte).toNat]? = some e ∧
      s.faults.entries.length ≤ (1 : Byte).toNat ∧ (framed unit).isHead = false ∧ 7 < (8 : Byte).toNat ∧
      11 < (12 : Byte).toNat ∧ (after .spotResult (framed unit)).port.slot = .finished [0x20, 0] ∧
      (after (.localRead 8) s).port.slot = .finished [0x21, 0] ∧ (after (.entry 1) s).port.slot = .finished [0x32, 0] := by
  decide



/-- One ACTIVE and one CLEARED entry, and an event. -/
theorem test_met_HeadRequestsAct :
    let e := head.newEntry (stationKey 0x31B004 .unitSilent) .empty (some 1)
    let c := { head.newEntry (stationKey 0x0C7711 .unitSilent) .empty (some 2) with state := .cleared }
    let s := framed { head with faults := ⟨[e, c], 0⟩, events := [⟨.coastBegin, 7⟩], warn := ⟨.steady, true, none⟩ }
    s.port.frame = some .noRequest ∧ s.isHead = true ∧ (framed head).events = [] ∧ s.events = [⟨.coastBegin, 7⟩] ∧
      s.faults.entries = [e] ++ c :: [] ∧ [e].length = (1 : Byte).toNat ∧ s.faults.entries.length ≤ (2 : Byte).toNat ∧
      e.key.serial = 0x31B004 ∧ e.state = .active ∧ c.state ≠ .active ∧
      (after (.ack 0 0x31B004) s).faults.entries = [{ e with acked := true }, c] ∧
      (after (.ack 1 0x0C7711) s).faults.entries = [e] ∧ (after (.ack 1 0x0C7711) s).port.slot = .finished [1, 2, 1, 1] ∧
      (after .ackAll s).port.slot = .finished [1, 2, 1, 1] ∧ (after (.ack 1 0x31B004) s).port.slot = .finished [0x33, 0] ∧
      (after .ackAll s).faults.entries = [{ e with acked := true }] ∧ (after .event s).events = [] := by decide

/-- LEARN busy, with no station found, and accepted; SPOT busy, to an empty slot, to rank 2 with its slot free and
occupied, and to the head itself. -/
theorem test_met_LearnAndSpotStart :
    let s := framed { head with roster := ⟨put (.replicate 8 none) 2 (some (peer 0x0C7711 2 0 (quiet .stop .led 0))), []⟩ }
    let busy := { s with learner := ⟨1, 4, [⟨0x0C7711, false, 90⟩]⟩ }
    let asked := { s with query := { s.query with outstanding := some ⟨0, 2, 0x0C7711, 2, 90⟩ } }
    let full := { s with link := { s.link with slots := { s.link.slots with query := some 1 } } }
    s.port.frame = some .noRequest ∧ s.isHead = true ∧ s.isSilent = false ∧ busy.learner.tracked ≠ [] ∧
      s.learner.tracked = [] ∧ s.link.slots.learn = none ∧ s.query.outstanding = none ∧ asked.query.outstanding ≠ none ∧
      s.roster.slots[(2 : Rank)] = some (peer 0x0C7711 2 0 (quiet .stop .led 0)) ∧ s.roster.slots[(1 : Rank)] = none ∧
      (∀ r : Rank, ¬ (r ≠ 0 ∧ (0x83 : Byte).getLsbD r.val = true ∧ s.roster.slots[r] ≠ none)) ∧
      full.link.slots.query ≠ none ∧ (after (.learn 4 4) busy).port.slot = .finished [0x30, 0] ∧
      (after (.learn 0x83 4) s).port.slot = .finished [0x31, 0] ∧ (after (.learn 4 4) s).learner.epoch = 1 ∧
      (after (.learn 0x87 4) s).port.slot = .finished [2, 2, 1, 4] ∧
      (after (.spot 0 3) s).port.slot = .finished [2, 1, 0] ∧
      (after (.spot 2 2) asked).port.slot = .finished [0x30, 0] ∧ (after (.spot 1 2) s).port.slot = .finished [0x31, 0] ∧
      (after (.spot 2 2) s).link.slots.query = some 0x020200 ∧ (after (.spot 2 2) full).query.waiting = some 0x020200 ∧
      (after (.spot 0 3) s).spot.reading = some ⟨0, 3, 0, 0, 0⟩ := by decide

/-- STORE CONFIG at 10000 and at 9999, in LOW SUPPLY, and behind a write; writes that match and do not match. -/
theorem test_met_StoreWritesStartAndEnd :
    let block := List.replicate 28 0#8
    let s := framed (atMs 9999 head)
    let low := { s with lowSupply := ⟨true, none⟩, cfg := { s.cfg with coastMask := .all } }
    let w : StoreWrite := ⟨.config, withCheck block, 9990⟩
    let v : StoreWrite := ⟨.reference 2, [0x98, 0x0D, 0x5A], 9990⟩
    let writing (x : StoreWrite) := { s with writes := ⟨[], none, some x⟩ }
    let queued (q : List RefWrite) (c : Option (List Byte)) (x : StoreWrite) := { s with writes := ⟨q, c, some x⟩ }
    let saves (x : State) := (x.circuits[(2 : Circ)].ref.save, x.circuits[(4 : Circ)].ref.save)
    s.port.frame = some .noRequest ∧ 10000 ≤ (atMs 10000 s).now % 4294967296 ∧ ¬ 10000 ≤ s.now % 4294967296 ∧
      (atMs (4294967296 + 9999) s).now % 4294967296 = 9999 ∧
      (after (.storeWriteEnd v.bytes) (queued [⟨4, 404⟩, ⟨2, 9⟩] (some block) v)).writes =
        ⟨[⟨4, 404⟩, ⟨2, 9⟩], none, some ⟨.config, withCheck block, 10009⟩⟩ ∧
      (after (.storeWriteEnd v.bytes) (queued [⟨4, 404⟩] none v)).writes =
        ⟨[], none, some ⟨.reference 4, withCheck [0x94, 0x01], 10009⟩⟩ ∧
      saves (after (.storeWriteEnd v.bytes) (queued [⟨4, 404⟩] none v)) = (.saved, .writing) ∧
      saves (after (.storeWriteEnd v.bytes) (queued [⟨4, 404⟩, ⟨2, 9⟩] none v)) = (.none, .writing) ∧
      low.lowSupply.active = true ∧ low.cfg.coastMask.lowSupply = true ∧ s.lowSupply.active = false ∧
      s.writes.current = none ∧ (writing w).writes = ⟨[], none, some w⟩ ∧ w.finish ≤ (writing w).now ∧ w.item = .config ∧
      v.item = .reference 2 ∧ (after (.storeConfig block) (atMs 10000 s)).port.slot = .finished [0x40, 0] ∧
      (after (.storeConfig block) low).port.slot = .finished [0x41, 0] ∧
      (after (.storeConfig block) s).writes.current = some ⟨.config, withCheck block, 10009⟩ ∧
      (after (.storeConfig block) (writing v)).writes.configSlot = some block ∧
      (after (.storeWriteEnd (withCheck block)) (writing w)).port.slot = .finished [0x01, 0] ∧
      (after (.storeWriteEnd block) (writing w)).port.slot = .finished [0x42, 0] ∧
      (after (.storeWriteEnd [0x98, 0x0D, 0x5A]) (writing v)).circuits[(2 : Circ)].ref.save = .saved ∧
      (after (.storeWriteEnd [0, 0, 0]) (writing v)).flags.storeFault = true := by decide

/-- A start-up reset by RESTART, of a head and of a unit, with a good and with an erased block, and behind a write. -/
theorem test_met_StartUpResetLeaves :
    let good := { Store.erased with config := withCheck (bytesLE 3 0x4A21C0 ++ List.replicate 25 0#8) }
    let s := framed { head with pins := { Pins.low with role := true }, store := good }
    s.port.frame = some .noRequest ∧ s.pins.role = true ∧ unit.pins.role = false ∧ s.writes.current = none ∧
      itemCondition good.config = .good ∧ itemCondition unit.store.config ≠ .good ∧
      validSerial (after .restart s).cfg.serial = true ∧ (after .restart s).link.tx = .waitGap ∧
      (after .restart s).link.slots.command = some 0x20000000000 ∧
      validSerial (after .startUpReset unit).cfg.serial = false ∧ (after .startUpReset unit).link.tx = .idle ∧
      ({ s with writes := ⟨[], none, some ⟨.reference 2, [1, 2, 3], 10⟩⟩ } : State).writes.current ≠ none := by decide

/-- The block of R5's examples: C5 of a head as LED, REVERSE, n = 2, rating 40; C1 of a unit as INCANDESCENT, n = 12, rating
640; a FEED on each; n = 0; an erased and a bad block; reference records good, discarded, bad and erased. -/
theorem test_met_EffectiveConfiguration :
    let word (f k n r : Nat) := bytesLE 3 (f + 8 * k + 32 * n + 512 * r)
    let none_ := word 7 0 0 0
    let block := withCheck (bytesLE 3 0x4A21C0 ++ [0x16#8] ++ none_ ++ word 2 1 12 640 ++ word 3 3 0 0 ++ word 4 2 0 9 ++
      word 3 2 2 21 ++ word 5 2 2 40 ++ none_ ++ word 2 1 4 88)
    let refs := put (put (put (put Store.erased.refs 1 [0, 0, 0]) 4 (withCheck [0x94, 0x01])) 5 [1, 1, 1]) 7
      (withCheck [0x10, 0x27])
    let s (role : Bool) (b : List Byte) := { State.reset with
      pins := { Pins.low with role := role, rate1 := true }, store := ⟨b, refs⟩ }
    let t (role : Bool) (b : List Byte) := after .startUpReset (s role b)
    let c (x : State) (i : Circ) := (x.circuits[i].cfg.kind, x.circuits[i].cfg.n, x.circuits[i].cfg.rating)
    let r (i : Circ) := ((t false block).circuits[i].ref.iref, (t false block).circuits[i].ref.outcome)
    (t true block).cfg = ⟨.head, .r57600, 0x4A21C0, ⟨false, true, true, false, true⟩⟩ ∧
      c (t true block) 5 = (.notFitted, 0, 0) ∧ (t true block).circuits[(5 : Circ)].cfg.fn = .reverse ∧
      c (t true block) 2 = (.feed, 0, 0) ∧ (t true block).balanceFeed .tail = some 2 ∧ (t true block).flags.configFault = true ∧
      c (t false block) 1 = (.incandescent, 8, 500) ∧ c (t false block) 2 = (.notFitted, 0, 0) ∧
      c (t false block) 3 = (.notFitted, 0, 0) ∧ c (t false block) 4 = (.led, 2, 21) ∧
      (t false (withCheck (List.replicate 28 0))).flags.configFault = false ∧
      (t false (List.replicate 29 0xFF)).flags.configFault = true ∧ (t false (block.dropLast ++ [0])).cfg.serial = 0xFFFFFF ∧
      r 4 = (some 404, .none) ∧ r 5 = (none, .recordBad) ∧ r 7 = (none, .recordDiscarded) ∧ r 1 = (none, .recordBad) ∧
      r 2 = (none, .none) ∧ (t false block).flags.storeFault = true := by decide +kernel

/-- A balance feed of a head with a LEAKAGE SOURCE of −406 and a circuit that is none; a note with an on-time of 400 and a
duty of 50; a roster place closed, empty and occupied. -/
theorem test_met_ReplyLayouts :
    let x : BalanceRecord := ⟨.leakage .source ⟨3100, 3506, -406, 310⟩, 9⟩
    let k := { fitted tailFeed with tracker := { Tracker.dormant with
      lastT := some 400, latestNote := some ⟨true, false, false, 800, 400, 50⟩ } }
    let s := { (head.setC 3 k) with
      balance := { head.balance with results := put (.replicate 8 none) 3 (some x) }
      roster := ⟨put (.replicate 8 none) 1 (some (peer 0x31B004 1 0 (quiet .tail .led 0))), []⟩ }
    s.isHead = true ∧ s.circuits[(3 : Circ)].cfg.kind = .feed ∧ s.circuits[(2 : Circ)].cfg.kind ≠ .feed ∧
      (s.localReply 3).drop 94 = [1, 0, 2, 0x1C, 0x0C, 0xB2, 0x0D, 0, 0, 0x6A, 0xFE, 0xFF, 0xFF, 0x36, 0x01, 9, 0, 0, 0, 0, 0, 0, 0] ∧
      ((s.localReply 3).drop 47).take 6 = [1, 0x20, 0x03, 0x90, 0x01, 50] ∧ k.tracker.lastT.getD 0 < 65536 ∧
      unit.isHead = false ∧ unit.cmd.headSupply < 65536 ∧ s.rank.state = .ranked 0 ∧ s.rosterReply 0 = [0] ∧
      s.roster.slots[(2 : Rank)] = none ∧ s.rosterReply 2 = [1] ∧ (s.rosterReply 1).take 5 = [2, 0x04, 0xB0, 0x31, 1] ∧
      s.roster.unplaced[0]? = none := by decide

end Sys2Proof.Tests
end

section
/-! SUPPORT. What every effect of a row but a start-up reset keeps: the queue, the pins, the configuration and the clock,
and the station's laws. One relation, closed under composition, and one lemma per operation. -/

namespace Sys2Proof.Machine

/-! ## The relation -/

/-- What the effects of a row leave alone and which laws they keep, before the fault list is settled. -/
structure KeepsUnsettled (s t : State) : Prop where
  pending : t.pending = s.pending
  pins : t.pins = s.pins
  cfg : t.cfg = s.cfg
  ticks : t.ticks = s.ticks
  circuitCfg : ∀ k : Circ, t.circuits[k].cfg = s.circuits[k].cfg
  events : s.eventLaw = true → t.eventLaw = true
  silence : s.silenceLaw = true → t.silenceLaw = true
  confirm : s.confirmLaw = true → t.confirmLaw = true
  ring : s.ringLaw = true → t.ringLaw = true
  writes : s.writeLaw = true → t.writeLaw = true

/-- What the effects of a row keep once the fault list is settled: the law of WARN too (R195). -/
structure Keeps (s t : State) : Prop extends KeepsUnsettled s t where
  warn : s.warnLaw = true → t.warnLaw = true

theorem Keeps.refl (s : State) : Keeps s s :=
  ⟨⟨rfl, rfl, rfl, rfl, fun _ => rfl, id, id, id, id, id⟩, id⟩

theorem KeepsUnsettled.trans {s t u : State} (h : KeepsUnsettled s t) (g : KeepsUnsettled t u) : KeepsUnsettled s u where
  pending := g.pending.trans h.pending
  pins := g.pins.trans h.pins
  cfg := g.cfg.trans h.cfg
  ticks := g.ticks.trans h.ticks
  circuitCfg k := (g.circuitCfg k).trans (h.circuitCfg k)
  events := g.events ∘ h.events
  silence := g.silence ∘ h.silence
  confirm := g.confirm ∘ h.confirm
  ring := g.ring ∘ h.ring
  writes := g.writes ∘ h.writes

theorem Keeps.trans {s t u : State} (h : Keeps s t) (g : Keeps t u) : Keeps s u where
  toKeepsUnsettled := h.toKeepsUnsettled.trans g.toKeepsUnsettled
  warn := g.warn ∘ h.warn

/-- Every field that `KeepsUnsettled` speaks of. -/
def State.kept (s : State) :=
  (s.pending, s.pins, s.cfg, s.ticks, s.circuits, s.events, s.link.slots, s.link.tx, s.conv.confirmQueue, s.ring, s.writes)

theorem KeepsUnsettled.same {s t : State} (h : t.kept = s.kept) : KeepsUnsettled s t := by
  simp only [State.kept, Prod.mk.injEq] at h
  obtain ⟨pending, pins, cfg, ticks, circuits, events, slots, tx, confirm, ring, writes⟩ := h
  refine ⟨pending, pins, cfg, ticks, fun k => by rw [circuits], ?_, ?_, ?_, ?_, ?_⟩
  · unfold State.eventLaw State.isHead
    rw [events, cfg]; exact id
  · unfold State.silenceLaw State.isSilent
    rw [cfg, tx, slots]; exact id
  · unfold State.confirmLaw
    rw [confirm]; exact id
  · unfold State.ringLaw State.now
    rw [ring, ticks]; exact id
  · unfold State.writeLaw
    rw [writes]; exact id

/-- A state that differs in other fields alone. -/
theorem Keeps.same {s t : State} (h : (t.kept, t.faults, t.warn.state) = (s.kept, s.faults, s.warn.state)) : Keeps s t where
  toKeepsUnsettled := .same (Prod.mk.inj h).1
  warn g := by
    simp only [Prod.mk.injEq] at h
    obtain ⟨_, faults, warn⟩ := h
    simpa only [State.warnLaw, faults, warn] using g

theorem KeepsUnsettled.foldl {α : Type} {f : State → α → State} (h : ∀ s a, KeepsUnsettled s (f s a)) (l : List α)
    (s : State) : KeepsUnsettled s (l.foldl f s) := by
  induction l generalizing s with
  | nil => exact (Keeps.refl s).toKeepsUnsettled
  | cons a l ih => exact (h s a).trans (ih _)

theorem Keeps.foldl {α : Type} {f : State → α → State} (h : ∀ s a, Keeps s (f s a)) (l : List α) (s : State) :
    Keeps s (l.foldl f s) := by
  induction l generalizing s with
  | nil => exact .refl s
  | cons a l ih => exact (h s a).trans (ih _)

/-- A row that acts only where its condition holds. -/
theorem Keeps.ite {s t : State} {p : Prop} [Decidable p] (h : Keeps s t) : Keeps s (if p then t else s) := by
  split
  · exact h
  · exact .refl s

/-! ## Circuits -/

@[simp] theorem push_cfg (k : Circuit) (r : Rec) : (k.push r).cfg = k.cfg := by rw [push_frame]

@[simp] theorem closeForMode_cfg (k : Circuit) (now : Ms) : (k.closeForMode now).cfg = k.cfg := by
  rcases closeForMode_cases k now with ⟨_, e⟩ | ⟨_, _, _, e⟩ | ⟨_, _, _, e⟩ <;> simp [e]

@[simp] theorem toOnPhase_cfg (k : Circuit) (now : Ms) : (k.toOnPhase now).cfg = k.cfg := by
  unfold Circuit.toOnPhase
  dsimp only
  split <;> simp

@[simp] theorem toWindow_cfg (k : Circuit) (now : Ms) : (k.toWindow now).cfg = k.cfg := closeForMode_cfg k now

@[simp] theorem flashingChange_cfg (k : Circuit) (f : Bool) (now : Ms) : (k.flashingChange f now).cfg = k.cfg := by
  unfold Circuit.flashingChange
  repeat' split
  all_goals simp

@[simp] theorem assembleEdge_cfg (k : Circuit) (edge : Ms) (rising : Bool) :
    (k.assembleEdge edge rising).1.cfg = k.cfg := by
  unfold Circuit.assembleEdge
  repeat' split
  all_goals simp

@[simp] theorem takeEdge_cfg (k : Circuit) (edge : Ms) (rising : Bool) (reported : Option Nat) (now : Ms) :
    (k.takeEdge edge rising reported now).cfg = k.cfg := by
  unfold Circuit.takeEdge
  dsimp only
  repeat' split
  all_goals simp

@[simp] theorem missFlash_cfg (k : Circuit) (at_ now : Ms) : (k.missFlash at_ now).cfg = k.cfg := by
  unfold Circuit.missFlash
  dsimp only
  repeat' split
  all_goals simp

@[simp] theorem silence_cfg (k : Circuit) (at_ : Ms) : (k.silence at_).cfg = k.cfg := by
  unfold Circuit.silence
  dsimp only
  split <;> simp

@[simp] theorem fallDormant_cfg (k : Circuit) (now : Ms) : (k.fallDormant now).cfg = k.cfg := toWindow_cfg _ _

@[simp] theorem closeWindow_cfg (k : Circuit) (r : Rec) : (k.closeWindow r).cfg = k.cfg := push_cfg _ _

@[simp] theorem closeHeldOn_cfg (k : Circuit) (r : Rec) : (k.closeHeldOn r).cfg = k.cfg := push_cfg _ _

/-- A circuit replaced by one of the same configuration. -/
theorem setC_keeps {s : State} {c : Circ} {k : Circuit} (h : k.cfg = s.circuits[c].cfg) : Keeps s (s.setC c k) := by
  refine { Keeps.refl s with circuitCfg := fun d => ?_ }
  rw [setC_circuit]
  split
  next e => rw [e, h]
  next => rfl

/-! ## Events -/

/-- R200: what the law of the event queue says. -/
theorem eventLaw_iff (s : State) :
    s.eventLaw = true ↔ s.events.length ≤ 16 ∧ (s.isHead = true ∨ s.events = []) := by
  simp [State.eventLaw]

theorem raise_keeps (s : State) (b : EventBody) : Keeps s (s.raise b) := by
  rcases raise_cases s b with ⟨_, e⟩ | ⟨head, room, e⟩ | ⟨_, _, e⟩ <;> rw [e]
  · exact .refl s
  · refine { Keeps.refl s with events := fun _ => ?_ }
    rw [eventLaw_iff]
    exact ⟨by simpa using room, .inl head⟩
  · exact .same rfl

theorem coastEdge_keeps {b s t : State} (h : Keeps s t) : Keeps s (coastEdge b t) := by
  rcases coastEdge_cases b t with ⟨_, e⟩ | ⟨_, _, e⟩ | ⟨_, _, e⟩ <;> rw [e]
  · exact h
  · exact h.trans (raise_keeps _ _)
  · exact h.trans (raise_keeps _ _)

/-! ## The pending set -/

/-- R6, R127: what the law of a silent station says. -/
theorem silenceLaw_iff (s : State) : s.silenceLaw = true ↔ (s.isSilent = true → s.link.slots.isEmpty = true) := by
  cases h : s.isSilent <;> simp [State.silenceLaw, h]

/-- R134: a transmitter that is not latched off does not become so by a telegram. -/
theorem queued_ne_latchedOff {t : TxState} (h : t ≠ .latchedOff) (k : TKind) : t.queued k ≠ .latchedOff := by
  cases t with
  | sending a =>
    unfold TxState.queued
    dsimp only
    split <;> simp
  | latchedOff => exact absurd rfl h
  | idle => simp [TxState.queued]
  | waitGap => simp [TxState.queued]
  | yielded => simp [TxState.queued]
  | cutOff => simp [TxState.queued]

/-- R6, R134: a station is silent without a valid serial or with its transmitter latched off. -/
theorem isSilent_iff (s : State) : s.isSilent = true ↔ validSerial s.cfg.serial = false ∨ s.link.tx = .latchedOff := by
  simp [State.isSilent]

/-- R127, R134: a change of the link that latches nothing off and fills no empty pending set. -/
theorem link_keeps {s : State} {l : Link} (tx : l.tx = .latchedOff → s.link.tx = .latchedOff)
    (slots : s.link.slots.isEmpty = true → l.slots.isEmpty = true) : Keeps s { s with link := l } := by
  refine { Keeps.refl s with silence := fun h => ?_ }
  rw [silenceLaw_iff, isSilent_iff] at h ⊢
  exact fun g => slots (h (g.imp id tx))

theorem putSlot_keeps (s : State) (k : TKind) (f : Slots → Slots) : Keeps s (s.putSlot k f) := by
  rcases putSlot_cases s k f with ⟨_, e⟩ | ⟨speaks, e⟩ <;> rw [e]
  · exact .refl s
  · refine { Keeps.refl s with silence := fun _ => ?_ }
    rw [← Bool.not_eq_true, isSilent_iff, not_or] at speaks
    rw [silenceLaw_iff, isSilent_iff]
    rintro (h | h)
    · exact absurd h speaks.1
    · exact absurd h (queued_ne_latchedOff speaks.2 k)

theorem queueStatus_keeps (s : State) : Keeps s s.queueStatus := by
  unfold State.queueStatus
  exact Keeps.trans (by exact .same rfl) (putSlot_keeps _ _ _)

theorem queueCommand_keeps (s : State) : Keeps s s.queueCommand := by
  unfold State.queueCommand
  exact Keeps.trans (by exact .same rfl) (putSlot_keeps _ _ _)

theorem noteChange_keeps (s : State) : Keeps s s.noteChange := by
  rcases noteChange_cases s with ⟨_, e⟩ | ⟨_, _, e⟩ <;> rw [e]
  · exact queueStatus_keeps s
  · exact .same rfl

theorem announce_keeps {b s t : State} (h : Keeps s t) : Keeps s (announce b t) := by
  rcases announce_cases b t with ⟨_, e⟩ | ⟨_, e⟩ <;> rw [e]
  · exact h
  · exact h.trans (noteChange_keeps t)

/-! ## The converter -/

/-- R10: a queue of no more requests keeps its law. -/
theorem confirmLaw_sublist {s t : State} (h : t.conv.confirmQueue.Sublist s.conv.confirmQueue)
    (l : s.confirmLaw = true) : t.confirmLaw = true :=
  decide_eq_true (h.nodup (of_decide_eq_true l))

theorem arbitrate_keeps (s : State) : Keeps s s.arbitrate := by
  rcases arbitrate_cases s with ⟨_, e⟩ | ⟨c, rest, _, q, e⟩ | ⟨_, _, _, _, _, e⟩ | ⟨_, _, _, _, e⟩ | ⟨_, _, _, e⟩ <;>
    rw [e]
  · exact .refl s
  · exact { Keeps.refl s with confirm := confirmLaw_sublist (by rw [q]; exact List.sublist_cons_self c rest) }
  · exact .same rfl
  · exact .same rfl
  · exact .refl s

theorem release_keeps {s t : State} (h : Keeps s t) : Keeps s t.release :=
  h.trans (Keeps.trans (t := { t with conv := { t.conv with grant := none } }) (.same rfl) (arbitrate_keeps _))

theorem startReading_keeps (s : State) (tag : BitVec 4) (c : Circ) : Keeps s (s.startReading tag c) :=
  Keeps.trans (t := { s with
    spot := { s.spot with reading := some ⟨tag, c, 0, 0, 0⟩ }
    conv := { s.conv with spotWaiting := !s.conv.spotSinceScan } }) (.same rfl) (arbitrate_keeps _)

theorem requestScan_keeps (s : State) : Keeps s s.requestScan :=
  Keeps.trans (t := { s with conv := { s.conv with
    scanWaiting := some s.conv.scanPos, scanPos := s.conv.scanPos + 1, scanDue := s.conv.scanDue + 10 } }) (.same rfl)
    (arbitrate_keeps _)

/-- R10: a circuit joins the edge-confirm queue once. -/
theorem joinQueue_nodup {q : List Circ} (h : q.Nodup) (c : Circ) : (if q.contains c then q else q ++ [c]).Nodup := by
  split
  · exact h
  next n =>
    rw [List.contains_iff_mem] at n
    exact List.nodup_append.2 ⟨h, by simp, fun a ha b hb => by rintro rfl; exact n (List.mem_singleton.1 hb ▸ ha)⟩

theorem takeSample_keeps (s : State) (c : Circ) (vm im : Nat) (stamp : Ms) : Keeps s (s.takeSample c vm im stamp) := by
  unfold State.takeSample
  dsimp only
  split
  · exact .refl s
  · split
    · refine (setC_keeps (k := { s.circuits[c] with pendingSample := some ⟨vm, im, stamp⟩ }) rfl).trans
        { Keeps.refl _ with confirm := fun h => decide_eq_true (joinQueue_nodup (of_decide_eq_true h) c) }
    · exact .ite (setC_keeps rfl)

theorem afterPair_keeps {s t : State} (h : Keeps s t) (c : Circ) : Keeps s (t.afterPair c) := by
  unfold State.afterPair
  split
  · exact h.trans (.same rfl)
  · exact release_keeps h

/-! ## The ring and the reported period -/

/-- R52: what the law of the ring says. -/
theorem ringLaw_iff (s : State) :
    s.ringLaw = true ↔ s.ring.length ≤ 8 ∧ (s.ring.map RingEntry.date).Pairwise (· ≤ ·) ∧
      ∀ e ∈ s.ring, e.date ≤ s.now := by
  simp [State.ringLaw, and_assoc]

/-- R52: an entry of the ring was there or is the one added. -/
theorem mem_ringAdd {ring : List RingEntry} {e x : RingEntry} (h : x ∈ ringAdd ring e) : x ∈ ring ∨ x = e := by
  unfold ringAdd at h
  split at h <;> rcases List.mem_append.1 h with h | h
  · exact .inl h
  · exact .inr (List.mem_singleton.1 h)
  · exact .inl (List.mem_of_mem_drop h)
  · exact .inr (List.mem_singleton.1 h)

theorem addRing_keeps {s : State} {e : RingEntry} (dated : e.date = s.now) : Keeps s (s.addRing e) := by
  refine { Keeps.refl s with circuitCfg := fun c => ?_, ring := fun h => ?_ }
  · rcases addRing_circuit s e c with h | h <;> rw [h]
    exact flashingChange_cfg _ _ _
  · rw [ringLaw_iff] at h ⊢
    obtain ⟨len, order, past⟩ := h
    refine ⟨(ringAdd_spec s.ring e len).1, ringAdd_dates order (fun x hx => dated ▸ past x hx), fun x hx => ?_⟩
    rcases mem_ringAdd hx with hx | rfl
    · exact past x hx
    · exact dated.le

theorem epochChange_keeps (s : State) : Keeps s s.epochChange :=
  Keeps.trans (t := { s with source := { s.source with epoch := s.source.epoch + 1 } }) (.same rfl)
    ((addRing_keeps rfl).trans (queueCommand_keeps _))

theorem reevaluatePeriod_keeps {b s t : State} (h : Keeps s t) : Keeps s (reevaluatePeriod b t) := by
  rcases reevaluatePeriod_cases b t with e | ⟨x, _, e⟩ | ⟨x, p, _, e⟩ <;> rw [e]
  · exact h
  · exact h.trans (.same rfl)
  · exact h.trans (Keeps.trans (t := { t with source := { t.source with lastSource := x, reported := p } }) (.same rfl)
      (epochChange_keeps _))

theorem confirmEdge_keeps (s : State) (c : Circ) (vm : Nat) : Keeps s (s.confirmEdge c vm) := by
  unfold State.confirmEdge
  dsimp only
  split
  · exact .refl s
  · split
    · exact reevaluatePeriod_keeps (setC_keeps (takeEdge_cfg _ _ _ _ _))
    · exact setC_keeps rfl

/-! ## Spot readings and queries -/

theorem completeQuery_keeps (s : State) (q : Query) (d : ReadingData) : Keeps s (s.completeQuery q d) :=
  Keeps.trans (t := { s with query := { s.query with outstanding := none, result := .done q d } }) (.same rfl) (raise_keeps _ _)

theorem localReading_keeps (s : State) (tag : BitVec 4) (c : Circ) (d : ReadingData) :
    Keeps s (s.localReading tag c d) := by
  unfold State.localReading
  split
  · exact .refl s
  · exact .ite (completeQuery_keeps _ _ _)

theorem queueReading_keeps (s : State) (p : BitVec 104) : Keeps s (s.queueReading p) := by
  unfold State.queueReading
  split
  · exact .same rfl
  · exact putSlot_keeps _ _ _

theorem addSpotPair_keeps (s : State) (r : SpotRun) (vm im : Nat) : Keeps s (s.addSpotPair r vm im) := by
  have idle : Keeps s { s with spot := { s.spot with reading := none } } := .same rfl
  unfold State.addSpotPair
  dsimp only
  split
  · split
    · exact idle.trans (localReading_keeps _ _ _ _)
    · exact idle.trans (queueReading_keeps _ _)
  · exact .same rfl

theorem takeSpotPair_keeps (s : State) (c : Circ) (vm im : Nat) : Keeps s (s.takeSpotPair c vm im) := by
  unfold State.takeSpotPair
  split
  · exact .refl s
  · exact .ite (addSpotPair_keeps _ _ _ _)

theorem timeOutQuery_keeps (s : State) (q : Query) : Keeps s (s.timeOutQuery q) :=
  Keeps.trans (t := { s with query := { s.query with outstanding := none, waiting := none, result := .timeout q } }) (.same rfl)
    (raise_keeps _ _)

theorem takeReading_keeps (s : State) (n : Serial) (tag : BitVec 4) (c : Circ) (d : ReadingData) :
    Keeps s (s.takeReading n tag c d) := by
  rcases takeReading_cases s n tag c d with ⟨_, _, _, e⟩ | e <;> rw [e]
  · exact completeQuery_keeps _ _ _
  · exact .same rfl

/-! ## The fault list -/

/-- R180, R195: once settled, a change of the list keeps the law of WARN too. -/
theorem KeepsUnsettled.settled {s t : State} (h : KeepsUnsettled s t) : Keeps s t.settleList := by
  refine { toKeepsUnsettled := h.trans ?_, warn := fun _ => settleList_warnLaw t }
  unfold State.settleList
  rcases deriveWarn_cases t.extents with ⟨_, e⟩ | ⟨_, e⟩ <;> rw [e] <;> exact .same rfl

theorem mapEntries_keeps (s : State) (g : Entry → Entry) : KeepsUnsettled s (s.mapEntries g) := .same rfl

theorem append_keeps (s : State) (es : List Entry) (e : Entry) : KeepsUnsettled s (s.append es e) :=
  KeepsUnsettled.trans (t := { s with faults := { s.faults with entries := es ++ [e] } }) (.same rfl)
    (raise_keeps _ _).toKeepsUnsettled

theorem makeEntry_keeps (s : State) (e : Entry) : KeepsUnsettled s (s.makeEntry e) := by
  rcases makeEntry_cases s e with ⟨_, h⟩ | ⟨_, _, h⟩ | ⟨_, _, h⟩ <;> rw [h]
  · exact append_keeps _ _ _
  · exact append_keeps _ _ _
  · exact .same rfl

theorem confirm_keeps (s : State) (k : Key) (d : Details) (claim : Option Rank) :
    KeepsUnsettled s (s.confirm k d claim) := by
  rcases confirm_cases s k d claim with ⟨_, e⟩ | ⟨_, _, _, e⟩ | ⟨_, _, _, e⟩ | ⟨_, _, _, e⟩ <;> rw [e]
  · exact makeEntry_keeps _ _
  · exact mapEntries_keeps _ _
  · exact mapEntries_keeps _ _
  · exact (mapEntries_keeps _ _).trans (raise_keeps _ _).toKeepsUnsettled

theorem clear_keeps (s : State) (k : Key) : KeepsUnsettled s (s.clear k) := by
  rcases clear_cases s k with ⟨_, e⟩ | ⟨_, _, _, e⟩ <;> rw [e]
  · exact .same rfl
  · exact (mapEntries_keeps s _).trans ((raise_keeps _ _).toKeepsUnsettled.trans (.same rfl))

theorem detail_keeps (s : State) (k : Key) (g : Details → Details) : KeepsUnsettled s (s.detail k g) :=
  mapEntries_keeps _ _

theorem headConfirmed_keeps (s : State) (c : Circ) (k : FaultKind) : KeepsUnsettled s (s.headConfirmed c k) := by
  unfold State.headConfirmed
  dsimp only
  split
  · split
    · exact detail_keeps _ _ _
    · exact confirm_keeps _ _ _ _
  · exact confirm_keeps _ _ _ _

theorem headCleared_keeps (s : State) (c : Circ) (k : FaultKind) : KeepsUnsettled s (s.headCleared c k) := by
  unfold State.headCleared
  dsimp only
  split
  · split
    · exact (detail_keeps _ _ _).trans (clear_keeps _ _)
    · exact detail_keeps _ _ _
  · exact clear_keeps _ _

theorem headOutcome_keeps (c : Circ) (s : State) (o : FilterOutcome) : Keeps s (State.headOutcome c s o) := by
  unfold State.headOutcome
  refine KeepsUnsettled.settled ?_
  cases o with
  | confirmed k => exact headConfirmed_keeps _ _ _
  | cleared k => exact headCleared_keeps _ _ _
  | detailsChanged k => exact .same rfl
  | refreshed k => exact .same rfl

theorem balanceOutcome_keeps (f : LampFn) (sign : Option Sign) (s : State) (o : FilterOutcome) :
    Keeps s (State.balanceOutcome f sign s o) := by
  unfold State.balanceOutcome
  refine KeepsUnsettled.settled ?_
  cases o with
  | confirmed k => exact confirm_keeps _ _ _ _
  | cleared k => exact clear_keeps _ _
  | detailsChanged k => exact detail_keeps _ _ _
  | refreshed k => exact .same rfl

theorem headClashInput_keeps (s : State) (begins : Bool) : Keeps s (s.headClashInput begins) := by
  refine KeepsUnsettled.settled ?_
  split
  · exact confirm_keeps _ _ _ _
  · exact clear_keeps _ _

theorem rankClashInput_keeps (s : State) (n : Serial) (begins : Bool) (claim : Option Rank) :
    Keeps s (s.rankClashInput n begins claim) := by
  refine KeepsUnsettled.settled ?_
  split
  · exact confirm_keeps _ _ _ _
  · exact clear_keeps _ _

/-- R194, R195: an acknowledgement derives WARN again. -/
theorem ackAt_keeps (s : State) (i : Nat) : Keeps s (s.ackAt i) where
  toKeepsUnsettled := by rw [ackAt_frame]; exact .same rfl
  warn _ := deriveWarn_law _

theorem ackEvery_keeps (s : State) : Keeps s s.ackEvery := Keeps.foldl ackAt_keeps _ _

/-! ## A STATUS on the head, and stations lost -/

theorem clearCircuit_keeps (n : Serial) (prev : Option Report) (now : Report) (s : State) (c : Circ) :
    KeepsUnsettled s (clearCircuit n prev now s c) := by
  unfold clearCircuit
  split
  · exact .same rfl
  · split
    · exact .same rfl
    · exact clear_keeps _ _

theorem clearLoss_keeps (n : Serial) (prev : Option Report) (now : Report) (s : State) (c : Circ) :
    KeepsUnsettled s (clearLoss n prev now s c) := by
  unfold clearLoss
  dsimp only
  split
  · exact clear_keeps _ _
  · exact (clear_keeps _ _).trans (mapEntries_keeps _ _)
  · exact .same rfl
  · exact .same rfl
  · exact .same rfl

theorem confirmCircuit_keeps (n : Serial) (prev : Option Report) (now : Report) (s : State) (c : Circ) :
    KeepsUnsettled s (confirmCircuit n prev now s c) := by
  unfold confirmCircuit
  split
  · exact .same rfl
  · split
    · exact detail_keeps _ _ _
    · exact confirm_keeps _ _ _ _

theorem confirmLoss_keeps (n : Serial) (prev : Option Report) (now : Report) (s : State) (c : Circ) :
    KeepsUnsettled s (confirmLoss n prev now s c) := by
  unfold confirmLoss
  dsimp only
  split
  · exact .same rfl
  · exact .same rfl
  · split
    · exact detail_keeps _ _ _
    · exact confirm_keeps _ _ _ _
    · exact confirm_keeps _ _ _ _

theorem comparePasses_keeps (s : State) (n : Serial) (prev : Option Report) (now : Report) :
    KeepsUnsettled s (s.comparePasses n prev now) :=
  (((KeepsUnsettled.foldl (clearCircuit_keeps n prev now) _ _).trans
    (.foldl (clearLoss_keeps n prev now) _ _)).trans
    (.foldl (confirmCircuit_keeps n prev now) _ _)).trans
    (.foldl (confirmLoss_keeps n prev now) _ _)

theorem joinStation_keeps (s : State) (n : Serial) (now : Report) : KeepsUnsettled s (s.joinStation n now) := by
  have heard : KeepsUnsettled s (s.raise (.stationJoined n)) := (raise_keeps _ _).toKeepsUnsettled
  have rest (t : State) : KeepsUnsettled t (((t.setRanks n (t.roster.slotOf n)).comparePasses n none now)) :=
    (mapEntries_keeps _ _).trans (comparePasses_keeps _ _ _ _)
  unfold State.joinStation
  dsimp only
  refine .trans ?_ (.foldl clear_keeps _ _)
  split
  · exact (heard.trans (clear_keeps _ _)).trans (rest _)
  · exact heard.trans (rest _)

theorem hearStation_keeps (s : State) (n : Serial) (prev : Option Report) (now : Report) :
    KeepsUnsettled s (s.hearStation n prev now) :=
  (mapEntries_keeps _ _).trans (comparePasses_keeps _ _ _ _)

theorem statusInput_keeps (s : State) (n : Serial) (prev : Option Report) (rep : Report) (out : Placement) :
    Keeps s (s.statusInput n prev rep out) := by
  unfold State.statusInput
  split
  · exact KeepsUnsettled.settled (.same rfl)
  · refine KeepsUnsettled.settled ?_
    cases out with
    | new => exact joinStation_keeps _ _ _
    | refreshed => exact hearStation_keeps _ _ _ _
    | moved src dst => exact hearStation_keeps _ _ _ _
    | notTaken => exact .same rfl

theorem clashChange_keeps (s : State) (before : Roster) (n : Serial) (claim : Option Rank) :
    Keeps s (s.clashChange before n claim) := by
  unfold State.clashChange
  split
  · exact rankClashInput_keeps _ _ _ _
  · exact rankClashInput_keeps _ _ _ _
  · exact .refl s
  · exact .refl s

theorem listStatus_keeps (s : State) (before : Roster) (h : RxHeader) (prev : Option Report) (rep : Report)
    (out : Placement) : Keeps s (s.listStatus before h prev rep out) := by
  have next : Keeps s { s with free := s.free + 1 } := .same rfl
  unfold State.listStatus
  split
  · exact statusInput_keeps _ _ _ _ _
  · dsimp only
    split
    · exact (next.trans (clashChange_keeps _ _ _ _)).trans (statusInput_keeps _ _ _ _ _)
    · exact (next.trans (statusInput_keeps _ _ _ _ _)).trans (clashChange_keeps _ _ _ _)

theorem noteUnlisted_keeps (s : State) (out : Placement) : Keeps s (s.noteUnlisted out) := by
  cases out with
  | notTaken => exact .same rfl
  | new => exact .refl s
  | refreshed => exact .refl s
  | moved src dst => exact .refl s

theorem raiseRankChanged_keeps (s : State) (n : Serial) (out : Placement) : Keeps s (s.raiseRankChanged n out) := by
  unfold State.raiseRankChanged
  split
  · exact raise_keeps _ _
  all_goals exact .refl s

theorem untrack_keeps (s : State) (n : Serial) (status : LearnDone) : Keeps s (s.untrack n status) :=
  Keeps.trans (t := { s with learner := { s.learner with tracked := s.learner.tracked.filter (·.serial != n) } }) (.same rfl)
    (raise_keeps _ _)

theorem trackLearning_keeps (s : State) (n : Serial) (rep : Report) : Keeps s (s.trackLearning n rep) := by
  unfold State.trackLearning
  split
  · exact .refl s
  · split
    · exact .same rfl
    · exact untrack_keeps _ _ _
    · exact .refl s
    · exact .refl s

theorem learnStatus_keeps (s : State) (n : Serial) (rep : Report) (out : Placement) :
    Keeps s (s.learnStatus n rep out) := by
  cases out with
  | notTaken => exact .refl s
  | new => exact trackLearning_keeps _ _ _
  | refreshed => exact trackLearning_keeps _ _ _
  | moved src dst => exact trackLearning_keeps _ _ _

theorem takeStatus_keeps (s : State) (h : RxHeader) (rep : Report) : Keeps s (s.takeStatus h rep) := by
  have placed : Keeps s (s.rosterStatus h rep) := .same rfl
  unfold State.takeStatus
  dsimp only
  split
  · exact (((placed.trans (listStatus_keeps _ _ _ _ _ _)).trans (noteUnlisted_keeps _ _)).trans
      (raiseRankChanged_keeps _ _ _)).trans (learnStatus_keeps _ _ _ _)
  · exact placed

theorem orphan_keeps (s : State) (k : Key) : KeepsUnsettled s (s.orphan k) :=
  (mapEntries_keeps _ _).trans (raise_keeps _ _).toKeepsUnsettled

theorem loseStation_keeps (s : State) (n : Serial) (r : Rank) : Keeps s (s.loseStation n r) :=
  KeepsUnsettled.settled <|
    (((raise_keeps _ _).toKeepsUnsettled.trans (mapEntries_keeps _ _)).trans (confirm_keeps _ _ _ _)).trans
      (.foldl orphan_keeps _ _)

theorem trackExpiry_keeps (s : State) (n : Serial) : Keeps s (s.trackExpiry n) := .ite (untrack_keeps _ _ _)

theorem expireSlot_keeps (s : State) (r : Rank) (e : RosterEntry) : Keeps s (s.expireSlot r e) := by
  have gone : Keeps s { s with roster := { s.roster with slots := put s.roster.slots r none } } := .same rfl
  unfold State.expireSlot
  dsimp only
  split
  · exact (gone.trans (loseStation_keeps _ _ _)).trans (trackExpiry_keeps _ _)
  · exact gone

theorem expireUnplaced_keeps (s : State) (i : Nat) (e : RosterEntry) : Keeps s (s.expireUnplaced i e) := by
  have gone : Keeps s { s with roster := { s.roster with unplaced := s.roster.unplaced.eraseIdx i } } := .same rfl
  unfold State.expireUnplaced
  dsimp only
  split
  · refine gone.trans (.trans ?_ (trackExpiry_keeps _ _))
    exact .ite (rankClashInput_keeps _ _ _ _)
  · exact gone

/-! ## The write engine -/

/-- R109: what the law of the write engine says. -/
theorem writeLaw_iff (w : WriteEngine) :
    w.law = true ↔ (w.current = none → w.configSlot = none ∧ w.queue = []) ∧ (w.queue.map RefWrite.circuit).Nodup := by
  cases h : w.current <;> simp [WriteEngine.law, h]

/-- R109: whatever waits, an engine offered a write leaves nothing waiting while it is free. -/
theorem startWrite_law {s : State} (h : (s.writes.queue.map RefWrite.circuit).Nodup) :
    s.startWrite.writeLaw = true := by
  unfold State.writeLaw
  rw [writeLaw_iff]
  rcases startWrite_cases s with ⟨busy, e⟩ | ⟨b, _, _, e⟩ | ⟨q, rest, _, _, hq, e⟩ | ⟨hw, e⟩ <;> rw [e]
  · exact ⟨fun g => absurd g busy, h⟩
  · exact ⟨by simp, h⟩
  · rw [hq] at h
    exact ⟨by simp [State.setSave], (List.nodup_cons.1 h).2⟩
  · simp [hw]

theorem setSave_keeps (s : State) (c : Circ) (v : SaveState) : Keeps s (s.setSave c v) := setC_keeps rfl

/-- R109: writes put to the engine, which then starts one if it is free. -/
theorem startWrite_keeps {s : State} {w : WriteEngine}
    (h : (s.writes.queue.map RefWrite.circuit).Nodup → (w.queue.map RefWrite.circuit).Nodup) :
    Keeps s (State.startWrite { s with writes := w }) := by
  have nodup (l : s.writeLaw = true) : (w.queue.map RefWrite.circuit).Nodup := h ((writeLaw_iff _).1 l).2
  have law (l : s.writeLaw = true) : (State.startWrite { s with writes := w }).writeLaw = true := startWrite_law (nodup l)
  rcases startWrite_cases { s with writes := w } with ⟨_, e⟩ | ⟨_, _, _, e⟩ | ⟨q, _, _, _, _, e⟩ | ⟨_, e⟩ <;>
    rw [e] at law ⊢
  · exact { Keeps.refl s with writes := law }
  · exact { Keeps.refl s with writes := law }
  · have save := setSave_keeps s q.circuit .writing
    exact { Keeps.refl s with circuitCfg := save.circuitCfg, writes := law }
  · exact { Keeps.refl s with writes := law }

theorem finishLearning_keeps (s : State) (c : Circ) (sum : Nat) : Keeps s (s.finishLearning c sum) := by
  have adopted : Keeps s (s.setC c { s.circuits[c] with ref := s.circuits[c].ref.adopt ((sum + 4) / 8) }) := setC_keeps rfl
  unfold State.finishLearning
  dsimp only
  split
  · exact adopted.trans (startWrite_keeps (add_nodup c _))
  · exact setC_keeps rfl

theorem handSample_keeps (s : State) (c : Circ) (sample : Nat) : Keeps s (s.handSample c sample) := by
  rcases handSample_cases s c sample with ⟨_, e⟩ | ⟨_, _, _, e⟩ | ⟨_, _, _, e⟩ <;> rw [e]
  · exact .refl s
  · exact setC_keeps rfl
  · exact finishLearning_keeps _ _ _

theorem reportWrite_keeps (s : State) (item : StoreItem) (ok : Bool) : Keeps s (s.reportWrite item ok) := by
  cases item with
  | config => exact .same rfl
  | reference c =>
    unfold State.reportWrite
    dsimp only
    split
    · exact .refl s
    · exact setSave_keeps _ _ _

/-- R110: what a write that ends reports depends on the queue of the engine alone. -/
theorem endWrite_eq (s : State) (w : StoreWrite) (readback : List Byte) :
    s.endWrite w readback = State.startWrite
      { State.reportWrite { s with
          store := s.store.write w.item readback
          flags := if readback == w.bytes then s.flags else { s.flags with storeFault := true } }
        w.item (readback == w.bytes) with
        writes := { s.writes with current := none } } := by
  unfold State.endWrite State.reportWrite
  cases w.item with
  | config => rfl
  | reference c =>
    dsimp only
    split <;> rfl

theorem reportWrite_writes (s : State) (item : StoreItem) (ok : Bool) : (s.reportWrite item ok).writes = s.writes := by
  cases item with
  | config => rfl
  | reference c =>
    unfold State.reportWrite
    dsimp only
    split <;> rfl

theorem endWrite_keeps (s : State) (w : StoreWrite) (readback : List Byte) : Keeps s (s.endWrite w readback) := by
  rw [endWrite_eq]
  refine Keeps.trans (t := { s with
    store := s.store.write w.item readback
    flags := if readback == w.bytes then s.flags else { s.flags with storeFault := true } }) (.same rfl) ?_
  refine (reportWrite_keeps _ w.item (readback == w.bytes)).trans (startWrite_keeps ?_)
  rw [reportWrite_writes]
  exact id

theorem storeConfig_keeps (block : List Byte) (s : State) : Keeps s (s.storeConfig block) := by
  rcases storeConfig_cases block s with ⟨_, e⟩ | ⟨_, _, e⟩ | ⟨_, _, e⟩ <;> rw [e]
  · exact .same rfl
  · exact .same rfl
  · exact Keeps.trans (t := { s with port := { s.port with slot := .inProgress } }) (.same rfl) (startWrite_keeps id)

/-! ## Judgement -/

theorem applyFilter_keeps (s : State) (c : Circ) (v : Verdict) : Keeps s (s.applyFilter c v) := by
  have taken : Keeps s (s.setC c { s.circuits[c] with filter := (s.circuits[c].filter.take v.evidence).1 }) :=
    setC_keeps rfl
  unfold State.applyFilter
  dsimp only
  split
  · exact taken.trans (.foldl (headOutcome_keeps c) _ _)
  · exact taken

theorem applyVerdict_keeps (s : State) (c : Circ) (v : Option Verdict) : Keeps s (s.applyVerdict c v) := by
  rcases applyVerdict_cases s c v with e | ⟨_, _, _, _, e⟩ | ⟨_, _, _, _, _, e⟩ <;> rw [e]
  · exact .refl s
  · exact applyFilter_keeps _ _ _
  · exact (applyFilter_keeps _ _ _).trans (handSample_keeps _ _ _)

theorem keepBalance_keeps (s : State) (f : LampFn) (b : BalanceRecord) : Keeps s (s.keepBalance f b) := by
  unfold State.keepBalance
  dsimp only
  split
  · exact .same rfl
  · exact Keeps.trans (by exact .same rfl) (.foldl (balanceOutcome_keeps f _) _ _)

theorem formBalance_keeps (s : State) (c : Circ) (r : Rec) (clean : Bool) : Keeps s (s.formBalance c r clean) := by
  rcases formBalance_cases s c r clean with e | ⟨_, _, _, e⟩ <;> rw [e]
  · exact .refl s
  · exact keepBalance_keeps _ _ _

theorem keepLast_keeps (s : State) (c : Circ) (r : Rec) (v : Option Verdict) : Keeps s (s.keepLast c r v) := setC_keeps rfl

theorem judge_keeps (s : State) (c : Circ) (r : Rec) : Keeps s (s.judge c r) := by
  have taken : Keeps s (s.setC c { s.circuits[c] with queue := s.circuits[c].queue.eraseP (·.due s.now) }) :=
    setC_keeps rfl
  unfold State.judge
  exact ((taken.trans (applyVerdict_keeps _ _ _)).trans (keepLast_keeps _ _ _ _)).trans (formBalance_keeps _ _ _ _)

/-! ## Telegrams and the transmitter -/

theorem good_link_keeps (s : State) : Keeps s { s with link := (s.link.good s.now).recount } := by
  refine link_keeps (fun h => ?_) fun h => ?_
  · rwa [recount_tx, good_frame] at h
  · rw [recount_slots, good_frame]; exact h

theorem arrive_keeps {α : Type} {consume : State → α → State} (h : ∀ s a, Keeps s (consume s a)) (s : State) (k : TKind)
    (content : Option α) : Keeps s (s.arrive k content consume) := by
  rcases arrive_cases s k content consume with ⟨_, e⟩ | ⟨_, _, e⟩ | ⟨_, _, _, e⟩ <;> rw [e]
  · exact good_link_keeps s
  · exact (good_link_keeps s).trans (link_keeps id id)
  · exact (good_link_keeps s).trans (h _ _)

theorem bad_link_keeps (s : State) (k : Option TKind) : Keeps s { s with link := (s.link.bad k).recount } := by
  rcases bad_cases s.link k with ⟨_, e⟩ | ⟨_, _, _, e⟩ | ⟨_, _, _, e⟩ | ⟨_, _, _, e⟩ <;> rw [e] <;>
    exact link_keeps id id

theorem acceptCommand_keeps (s : State) (n : Serial) (c : CommandContent) : Keeps s (s.acceptCommand n c) :=
  Keeps.trans (by exact .same rfl) (addRing_keeps rfl)

theorem trackCommand_keeps (s : State) (n : Serial) (c : CommandContent) : Keeps s (s.trackCommand n c) := by
  rcases trackCommand_cases s n c with e | e | e <;> rw [e]
  · exact .same rfl
  · exact acceptCommand_keeps _ _ _
  · exact .same rfl

theorem takeCommand_keeps (h : RxHeader) (s : State) (c : CommandContent) : Keeps s (s.takeCommand h c) := by
  have clash : Keeps s s.clashCommand := .same rfl
  unfold State.takeCommand
  dsimp only
  split
  · split
    · exact (coastEdge_keeps clash).trans (headClashInput_keeps _ _)
    · exact coastEdge_keeps clash
  · split
    · split
      · exact trackCommand_keeps _ _ _
      · exact clash
    · exact .refl s

theorem actOnLearn_keeps (s : State) (e circuits : Byte) : Keeps s (s.actOnLearn e circuits) := by
  refine { Keeps.refl s with circuitCfg := fun k => ?_ }
  have entered : (s.actOnLearn e circuits).circuits[k] = _ := eight_get _ k
  rw [entered]
  dsimp only
  split <;> rfl

/-- R128: a slot emptied leaves no telegram in an empty set. -/
theorem empty_isEmpty {p : Slots} (h : p.isEmpty = true) (k : TKind) : (p.empty k).isEmpty = true := by
  obtain ⟨a, b, c, d, e⟩ := p
  simp only [Slots.isEmpty, Bool.and_eq_true, Option.isNone_iff_eq_none] at h
  obtain ⟨⟨⟨⟨rfl, rfl⟩, rfl⟩, rfl⟩, rfl⟩ := h
  cases k <;> rfl

/-- R129: no pending set leaves the transmitter latched off. -/
theorem rest_ne_latchedOff (p : Slots) : p.rest ≠ .latchedOff := by
  unfold Slots.rest
  split <;> simp

theorem tellFree_keeps (s : State) (k : TKind) : Keeps s (s.tellFree k) := by
  cases k with
  | query =>
    show Keeps s s.offerQuery
    unfold State.offerQuery
    split
    · exact .refl s
    · exact Keeps.trans (by exact .same rfl) (putSlot_keeps _ _ _)
  | reading =>
    show Keeps s s.offerReading
    unfold State.offerReading
    split
    · exact .refl s
    · exact Keeps.trans (by exact .same rfl) (putSlot_keeps _ _ _)
  | command => exact .refl s
  | learn => exact .refl s
  | status => exact .refl s

/-- R132: an attempt completes with this pending set. -/
theorem sent_keeps (s : State) {p : Slots} (h : s.link.slots.isEmpty = true → p.isEmpty = true) :
    Keeps s { s with link := { s.link.letGo with slots := p, tx := p.rest } } :=
  link_keeps (fun l => absurd l (rest_ne_latchedOff p)) h

theorem complete_keeps (s : State) (a : Attempt) : Keeps s (s.complete a) := by
  unfold State.complete
  dsimp only
  split
  · exact sent_keeps s id
  · exact (sent_keeps s fun h => empty_isEmpty h a.kind).trans (tellFree_keeps _ _)

/-- R133, R134: a driver that is latched off has an empty pending set. -/
theorem cut_keeps (s : State) : Keeps s { s with link := s.link.cut s.now, flags := { s.flags with txCutoff := true } } := by
  rcases cut_cases s.link s.now with ⟨_, e⟩ | ⟨_, e⟩ <;> rw [e]
  · exact { Keeps.refl s with silence := fun _ => (silenceLaw_iff _).2 fun _ => rfl }
  · exact (link_keeps (s := s) (l := { s.link.letGo with tx := .cutOff, cutRecord := addCut s.link.cutRecord s.now })
      (fun h => by cases h) id).trans (.same rfl)

/-! ## The rank line and the port -/

theorem setRank_keeps (s : State) (u : RankUnit) : Keeps s (s.setRank u) := by
  rcases setRank_cases s u with e | ⟨_, _, e⟩ <;> rw [e] <;> exact .same rfl

theorem reply_keeps (s : State) (outcome : Byte) (data : List Byte) : Keeps s (s.reply outcome data) := .same rfl

theorem atRelease_keeps {act : State → State} (h : ∀ s, Keeps s (act s)) (s : State) : Keeps s (s.atRelease act) := by
  rcases atRelease_cases s act with ⟨_, e⟩ | ⟨_, e⟩ | ⟨_, e⟩ | ⟨_, e⟩ <;> rw [e]
  · exact .refl s
  · exact .same rfl
  · exact Keeps.trans (by exact .same rfl) (h _)
  · exact Keeps.trans (by exact .same rfl) (h _)

theorem headOnly_keeps {act : State → State} (h : ∀ s, Keeps s (act s)) (s : State) : Keeps s (State.headOnly act s) := by
  rcases headOnly_cases act s with ⟨_, e⟩ | ⟨_, e⟩ <;> rw [e]
  · exact h s
  · exact reply_keeps _ _ _

theorem popEvent_keeps (s : State) : Keeps s s.popEvent := by
  rcases popEvent_cases s with ⟨_, e⟩ | ⟨_, rest, hs, e⟩ <;> rw [e]
  · exact reply_keeps _ _ _
  · refine Keeps.trans (t := { s with events := rest }) { Keeps.refl s with events := fun h => ?_ } (reply_keeps _ _ _)
    rw [eventLaw_iff, hs] at h
    rw [eventLaw_iff]
    obtain ⟨len, head | none⟩ := h
    · exact ⟨by simp at len ⊢; omega, .inl head⟩
    · cases none

theorem readEntry_keeps (index : Byte) (s : State) : Keeps s (s.readEntry index) := by
  unfold State.readEntry
  split <;> exact reply_keeps _ _ _

theorem ack_keeps (index : Byte) (n : Serial) (s : State) : Keeps s (s.ack index n) := by
  rcases ack_cases s index n with ⟨_, e⟩ | ⟨_, _, _, e⟩ | ⟨_, _, _, _, e⟩ <;> rw [e]
  · exact reply_keeps _ _ _
  · exact reply_keeps _ _ _
  · exact (ackAt_keeps _ _).trans (reply_keeps _ _ _)

theorem clearFlags_keeps (mask : Byte) (s : State) : Keeps s (s.clearFlags mask) := .same rfl

theorem requestLearn_keeps (stations circuits : Byte) (s : State) : Keeps s (s.requestLearn stations circuits) := by
  rcases requestLearn_cases s stations circuits with ⟨_, e⟩ | ⟨_, _, _, e⟩ | ⟨_, _, _, e⟩ <;> rw [e]
  · exact reply_keeps _ _ _
  · exact reply_keeps _ _ _
  · exact Keeps.trans (by exact .same rfl) ((putSlot_keeps _ _ _).trans (reply_keeps _ _ _))

theorem queueQuery_keeps (s : State) (p : BitVec 24) : Keeps s (s.queueQuery p) := by
  unfold State.queueQuery
  split
  · exact .same rfl
  · exact putSlot_keeps _ _ _

theorem requestSpot_keeps (r : Rank) (c : Circ) (s : State) : Keeps s (s.requestSpot r c) := by
  have asked (n : Serial) : Keeps s (s.openQuery r n c) := .same rfl
  rcases requestSpot_cases s r c with ⟨_, e⟩ | ⟨_, _, _, e⟩ | ⟨_, _, _, e⟩ | ⟨_, _, _, _, _, e⟩ <;> rw [e]
  · exact reply_keeps _ _ _
  · exact ((asked _).trans (startReading_keeps _ _ _)).trans (reply_keeps _ _ _)
  · exact reply_keeps _ _ _
  · exact ((asked _).trans (queueQuery_keeps _ _)).trans (reply_keeps _ _ _)

end Sys2Proof.Machine
end

section
/-! SUPPORT. Every row completes, and every row but a start-up reset keeps what `Keeps` says. -/

namespace Sys2Proof.Machine

/-- R3, R25 (log entry 2): no row stops, and every row but the two that reset the station keeps the configuration, the
clock and the laws. -/
theorem exec_keeps (c : Instr) (s : State) (reset : c ≠ .startUpReset) (restart : c ≠ .restart) :
    ∃ t, exec c s = .next t ∧ Keeps s t := by
  cases c with
  | startUpReset => exact absurd rfl reset
  | restart => exact absurd rfl restart
  | scanStep => exact ⟨_, rfl, .ite (requestScan_keeps s)⟩
  | pairEnd v i =>
    refine ⟨_, rfl, ?_⟩
    split
    · exact afterPair_keeps (takeSample_keeps _ _ _ _ _) _
    all_goals exact .refl s
  | supplyConversionEnd v =>
    refine ⟨_, rfl, ?_⟩
    split
    · exact announce_keeps (release_keeps (coastEdge_keeps (.same rfl)))
    all_goals exact .refl s
  | voltageReConversionEnd v =>
    refine ⟨_, rfl, ?_⟩
    split
    · exact announce_keeps (release_keeps (confirmEdge_keeps _ _ _))
    all_goals exact .refl s
  | spotPairEnd v i =>
    refine ⟨_, rfl, ?_⟩
    split
    · exact release_keeps (takeSpotPair_keeps _ _ _ _)
    all_goals exact .refl s
  | missedFlash c => exact ⟨_, rfl, .ite (reevaluatePeriod_keeps (setC_keeps (missFlash_cfg _ _ _)))⟩
  | silenceDeadline c => exact ⟨_, rfl, .ite (setC_keeps (silence_cfg _ _))⟩
  | lingerEnd c => exact ⟨_, rfl, .ite (reevaluatePeriod_keeps (setC_keeps (fallDormant_cfg _ _)))⟩
  | windowClose c =>
    refine ⟨_, rfl, ?_⟩
    split
    · exact setC_keeps (closeWindow_cfg _ _)
    · exact .refl s
  | heldOnClose c =>
    refine ⟨_, rfl, ?_⟩
    split
    · exact setC_keeps (closeHeldOn_cfg _ _)
    · exact .refl s
  | takenForJudgement c =>
    refine ⟨_, rfl, ?_⟩
    split
    · exact announce_keeps (judge_keeps _ _ _)
    · exact .refl s
  | learnDeadline c => exact ⟨_, rfl, .ite (announce_keeps (setC_keeps rfl))⟩
  | storeWriteEnd readback =>
    refine ⟨_, rfl, ?_⟩
    split
    · exact endWrite_keeps _ _ _
    · exact .refl s
  | intentDebounce line =>
    exact ⟨_, rfl, .ite (announce_keeps (coastEdge_keeps (Keeps.trans (by exact .same rfl) (epochChange_keeps _))))⟩
  | reSendTimer => exact ⟨_, rfl, .ite (queueCommand_keeps s)⟩
  | stalenessTimer => exact ⟨_, rfl, .ite (announce_keeps (.same rfl))⟩
  | candidateStart quietNs widthNs driving char => exact ⟨_, rfl, link_keeps id id⟩
  | badTelegram chars =>
    refine ⟨_, rfl, ?_⟩
    split
    · exact bad_link_keeps _ _
    · exact .refl s
  | commandTelegram h p => exact ⟨_, rfl, announce_keeps (arrive_keeps (takeCommand_keeps h) _ _ _)⟩
  | learnTelegram h p =>
    exact ⟨_, rfl, announce_keeps (arrive_keeps (fun _ _ => .ite (actOnLearn_keeps _ _ _)) _ _ _)⟩
  | queryTelegram h p => exact ⟨_, rfl, arrive_keeps (fun _ _ => .ite (startReading_keeps _ _ _)) _ _ _⟩
  | readingTelegram h p => exact ⟨_, rfl, arrive_keeps (fun _ _ => .ite (takeReading_keeps _ _ _ _ _)) _ _ _⟩
  | statusTelegram h p => exact ⟨_, rfl, arrive_keeps (fun s rep => takeStatus_keeps s h rep) _ _ _⟩
  | headClashDeadline =>
    have coast : Keeps s (coastEdge s { s with
      headClashAt := none, tell := { s.tell with clashEnd := some s.now } }) := coastEdge_keeps (.same rfl)
    refine ⟨_, rfl, .ite (announce_keeps ?_)⟩
    split
    · exact coast.trans (headClashInput_keeps _ _)
    · exact coast
  | rosterExpiry place =>
    refine ⟨_, rfl, ?_⟩
    split
    · exact .refl s
    · split
      · exact expireSlot_keeps _ _ _
      · exact expireUnplaced_keeps _ _ _
  | warnBlinkHalf => exact ⟨_, rfl, .ite (.same rfl)⟩
  | trainSeconds => exact ⟨_, rfl, .ite (.same rfl)⟩
  | unlistedDeadline => exact ⟨_, rfl, .ite (.same rfl)⟩
  | aloneTimer => exact ⟨_, rfl, .ite (link_keeps id id)⟩
  | sendAttempt quietNs =>
    refine ⟨_, rfl, ?_⟩
    split
    · exact link_keeps (fun h => by cases h) id
    · exact link_keeps id id
  | yieldLine line => exact ⟨_, rfl, .ite (link_keeps (fun h => by cases h) id)⟩
  | driveFault line => exact ⟨_, rfl, .ite (link_keeps (fun h => by cases h) id)⟩
  | completion =>
    refine ⟨_, rfl, ?_⟩
    split
    · exact complete_keeps _ _
    all_goals exact .refl s
  | cutOff ns =>
    refine ⟨_, rfl, .ite ?_⟩
    split
    · exact cut_keeps s
    · exact link_keeps id id
  | cutOffRecovery ms => exact ⟨_, rfl, .ite (link_keeps (fun h => absurd h (rest_ne_latchedOff _)) id)⟩
  | lineStuck ns =>
    refine ⟨_, rfl, ?_⟩
    split
    · exact .refl s
    · split
      · exact (link_keeps (l := { s.link.letGo with stuckHold := true, lineNs := ns }) id id).trans (.same rfl)
      · exact link_keeps id id
  | lineStuckHoldEnd ms => exact ⟨_, rfl, link_keeps id id⟩
  | statusTimer => exact ⟨_, rfl, .ite (Keeps.trans (by exact .same rfl) (queueStatus_keeps _))⟩
  | holdoff => exact ⟨_, rfl, .ite (queueStatus_keeps s)⟩
  | rearBurstStart => exact ⟨_, rfl, .ite (.same rfl)⟩
  | rearPulse =>
    refine ⟨_, rfl, ?_⟩
    split <;> exact .same rfl
  | frontHighStretch us =>
    refine ⟨_, rfl, ?_⟩
    split <;> exact .same rfl
  | burstEnd =>
    refine ⟨_, rfl, ?_⟩
    split
    · exact .refl s
    · exact announce_keeps (setRank_keeps _ _)
  | rankSilenceDeadline => exact ⟨_, rfl, .ite (announce_keeps (setRank_keeps _ _))⟩
  | learnTrackerDeadline serial => exact ⟨_, rfl, .ite (untrack_keeps _ _ _)⟩
  | queryDeadline =>
    refine ⟨_, rfl, ?_⟩
    split
    · exact .refl s
    · exact timeOutQuery_keeps _ _
  | frameStart =>
    refine ⟨_, rfl, ?_⟩
    split <;> exact .same rfl
  | badFrame => exact ⟨_, rfl, atRelease_keeps (fun _ => reply_keeps _ _ _) s⟩
  | unknown code => exact ⟨_, rfl, atRelease_keeps (fun _ => reply_keeps _ _ _) s⟩
  | status => exact ⟨_, rfl, atRelease_keeps (fun _ => reply_keeps _ _ _) s⟩
  | event => exact ⟨_, rfl, atRelease_keeps (headOnly_keeps popEvent_keeps) s⟩
  | entry index => exact ⟨_, rfl, atRelease_keeps (headOnly_keeps (readEntry_keeps index)) s⟩
  | ack index serial => exact ⟨_, rfl, atRelease_keeps (headOnly_keeps (ack_keeps index serial)) s⟩
  | ackAll =>
    exact ⟨_, rfl, atRelease_keeps (headOnly_keeps fun s => (ackEvery_keeps s).trans (reply_keeps _ _ _)) s⟩
  | clearFlags mask => exact ⟨_, rfl, atRelease_keeps (headOnly_keeps (clearFlags_keeps mask)) s⟩
  | learn stations circuits =>
    exact ⟨_, rfl, atRelease_keeps (headOnly_keeps (requestLearn_keeps stations circuits)) s⟩
  | spot rank circuit =>
    refine ⟨_, rfl, atRelease_keeps (headOnly_keeps fun s => ?_) s⟩
    split
    · split
      · exact requestSpot_keeps _ _ _
      · exact reply_keeps _ _ _
    · exact reply_keeps _ _ _
  | spotResult => exact ⟨_, rfl, atRelease_keeps (headOnly_keeps fun _ => reply_keeps _ _ _) s⟩
  | roster position =>
    refine ⟨_, rfl, atRelease_keeps (fun s => ?_) s⟩
    split <;> exact reply_keeps _ _ _
  | localRead circuit =>
    refine ⟨_, rfl, atRelease_keeps (fun s => ?_) s⟩
    split <;> exact reply_keeps _ _ _
  | tallies => exact ⟨_, rfl, atRelease_keeps (fun _ => reply_keeps _ _ _) s⟩
  | storeConfig block => exact ⟨_, rfl, atRelease_keeps (storeConfig_keeps block) s⟩

/-! ## The two resets -/

/-- The six laws of O16 at once. -/
structure StationLaws (s : State) : Prop where
  warn : s.warnLaw = true
  events : s.eventLaw = true
  silence : s.silenceLaw = true
  confirm : s.confirmLaw = true
  ring : s.ringLaw = true
  writes : s.writeLaw = true

theorem Keeps.laws {s t : State} (h : Keeps s t) (l : StationLaws s) : StationLaws t :=
  ⟨h.warn l.warn, h.events l.events, h.silence l.silence, h.confirm l.confirm, h.ring l.ring, h.writes l.writes⟩

theorem startValues_ring (s : State) : s.startValues.ring = if s.pins.roleOf = .head then [RingEntry.first] else [] := rfl

theorem startValues_laws (s : State) : StationLaws s.startValues where
  warn := rfl
  events := (eventLaw_iff _).2 ⟨Nat.zero_le _, .inr rfl⟩
  silence := (silenceLaw_iff _).2 fun _ => rfl
  confirm := rfl
  ring := by
    rw [ringLaw_iff, startValues_ring]
    split <;> simp [RingEntry.first]
  writes := rfl

/-- R25: a start-up reset is the start-up values with a STATUS, and on the head a COMMAND, queued. -/
theorem startUp_keeps (s : State) : Keeps s.startValues s.startUp := by
  unfold State.startUp
  dsimp only
  split
  · exact (queueStatus_keeps _).trans (queueCommand_keeps _)
  · exact queueStatus_keeps _

theorem startUp_laws (s : State) : StationLaws s.startUp := (startUp_keeps s).laws (startValues_laws s)

theorem startUp_pending (s : State) : s.startUp.pending = s.pending := (startUp_keeps s).pending

theorem startUp_pins (s : State) : s.startUp.pins = s.pins := (startUp_keeps s).pins

/-- R206: RESTART leaves a station without a frame, discards a frame answered NOT READY, and is else a reset. -/
theorem restart_cases (s : State) : ∃ t, exec .restart s = .next t ∧ (Keeps s t ∨ t = s.startUp) := by
  refine ⟨_, rfl, ?_⟩
  rcases atRelease_cases s State.startUp with ⟨_, e⟩ | ⟨_, e⟩ | ⟨_, e⟩ | ⟨_, e⟩ <;> rw [e]
  · exact .inl (.refl s)
  · exact .inl (.same rfl)
  · exact .inr rfl
  · exact .inr rfl

/-- Every row completes, and keeps what `Keeps` says or is a start-up reset. -/
theorem exec_cases (c : Instr) (s : State) : ∃ t, exec c s = .next t ∧ (Keeps s t ∨ t = s.startUp) := by
  by_cases reset : c = .startUpReset
  · exact ⟨_, by rw [reset]; rfl, .inr rfl⟩
  · by_cases restart : c = .restart
    · rw [restart]; exact restart_cases s
    · obtain ⟨t, e, k⟩ := exec_keeps c s reset restart
      exact ⟨t, e, .inl k⟩

/-- The six laws pass from one state to another. -/
def LawsPass (s t : State) : Prop :=
  (s.warnLaw = true → t.warnLaw = true) ∧ (s.eventLaw = true → t.eventLaw = true) ∧
    (s.silenceLaw = true → t.silenceLaw = true) ∧ (s.confirmLaw = true → t.confirmLaw = true) ∧
    (s.ringLaw = true → t.ringLaw = true) ∧ (s.writeLaw = true → t.writeLaw = true)

/-- Every row passes the laws on: it keeps them, or is a reset, which meets them. -/
theorem exec_lawsPass {c : Instr} {s t : State} (e : exec c s = .next t) : LawsPass s t := by
  obtain ⟨u, eu, h⟩ := exec_cases c s
  cases eu.symm.trans e
  rcases h with k | rfl
  · exact ⟨k.warn, k.events, k.silence, k.confirm, k.ring, k.writes⟩
  · have l := startUp_laws s
    exact ⟨fun _ => l.warn, fun _ => l.events, fun _ => l.silence, fun _ => l.confirm, fun _ => l.ring, fun _ => l.writes⟩

end Sys2Proof.Machine
end

section
/-! SUPPORT. One step of the station: a row on a shorter queue, the roster ageing, a due row, or 125 µs. -/

namespace Sys2Proof.Machine

/-- R48, R52: 125 µs pass every law on: the ring's dates stay in the past. -/
theorem tick_lawsPass (s : State) : LawsPass s s.tick := by
  rw [(tick_frame s).1]
  refine ⟨id, id, id, id, fun h => ?_, id⟩
  rw [ringLaw_iff] at h ⊢
  obtain ⟨len, order, past⟩ := h
  exact ⟨len, order, fun e he => (past e he).trans (Nat.div_le_div_right (Nat.le_succ _))⟩

/-- What a step is: a row on the queue's rest, ageing, a due row on the station as it stands, or a tick. -/
theorem step_cases (s : State) :
    (∃ c rest, s.pending = c :: rest ∧ step s = exec c { s with pending := rest }) ∨
    (s.pending = [] ∧ s.roster.ages s.now = true ∧ step s = .next s.ageEntries) ∨
    (∃ c rest, s.pending = [] ∧ s.roster.ages s.now = false ∧ s.due = c :: rest ∧ step s = exec c s) ∨
    (s.pending = [] ∧ s.roster.ages s.now = false ∧ s.due = [] ∧ step s = .next s.tick) := by
  unfold step
  cases hp : s.pending with
  | cons c rest => simp
  | nil =>
    cases ha : s.roster.ages s.now with
    | true => simp
    | false => cases hd : s.due <;> simp

/-- Settles O16: every row passes the laws on, ageing touches nothing they speak of, and so nearly does a tick. -/
theorem stepKeepsStationLaws : Obligations.StepKeepsStationLaws := by
  intro s t h
  show LawsPass s t
  rcases step_cases s with ⟨c, rest, _, e⟩ | ⟨_, _, e⟩ | ⟨c, _, _, _, _, e⟩ | ⟨_, _, _, e⟩
  · exact exec_lawsPass (s := { s with pending := rest }) (e.symm.trans h)
  · cases e.symm.trans h
    exact ⟨id, id, id, id, id, id⟩
  · exact exec_lawsPass (e.symm.trans h)
  · cases e.symm.trans h
    exact tick_lawsPass s

/-- Settles O3: `Keeps` holds what a row leaves alone, and a reset keeps the queue and the pins. -/
theorem everyCommandCompletesAndKeepsQueueAndPins : Obligations.EveryCommandCompletesAndKeepsQueueAndPins := by
  intro c s
  by_cases other : c ≠ .startUpReset ∧ c ≠ .restart
  · obtain ⟨t, e, k⟩ := exec_keeps c s other.1 other.2
    exact ⟨t, e, k.pending, k.pins, fun _ _ => ⟨k.cfg, k.ticks, k.circuitCfg⟩⟩
  · have none : c ≠ .startUpReset → c ≠ .restart → False := fun a b => other ⟨a, b⟩
    obtain ⟨t, e, k | rfl⟩ := exec_cases c s
    · exact ⟨t, e, k.pending, k.pins, fun a b => (none a b).elim⟩
    · exact ⟨_, e, startUp_pending s, startUp_pins s, fun a b => (none a b).elim⟩

/-- Settles O18: the state after reset is a literal. -/
theorem resetKeepsEveryLaw : Obligations.ResetKeepsEveryLaw := by
  unfold Obligations.ResetKeepsEveryLaw
  decide

end Sys2Proof.Machine
end

section
/-! SUPPORT. The normalised current (R22 to R24) and the idle step. -/

namespace Sys2Proof.Machine

/-! ## The normalised current -/

theorem clampV_bounds (vm : Nat) : 18000 ≤ clampV vm ∧ clampV vm ≤ 32000 := by unfold clampV; omega

/-- R23: the factor of an incandescent lamp, formed without a negative step. -/
theorem incandescent_factor (vm : Nat) :
    ((2400000 + 55 * 24000 - 55 * clampV vm : Nat) : Int) = 2400000 + 55 * (24000 - (clampV vm : Int)) := by
  have := clampV_bounds vm
  omega

/-- R23: the formula of each load kind over the integers. -/
theorem normalise_int (k : LoadKind) (im vm : Nat) :
    (normalise k im vm : Int) = match k with
      | .incandescent => (im * (2400000 + 55 * (24000 - (clampV vm : Int))) + 1200000) / 2400000
      | .led => (im * (clampV vm : Int) + 12000) / 24000
      | .feed => im
      | .notFitted => 0 := by
  cases k with
  | incandescent =>
    rw [← incandescent_factor]
    simp [normalise, divRound]
  | led => simp [normalise, divRound]
  | feed => rfl
  | notFitted => rfl

/-- A rounded quotient grows with its product. -/
theorem divRound_mul_le {a a' b b' : Nat} (ha : a ≤ a') (hb : b ≤ b') (den : Nat) :
    divRound (a * b) den ≤ divRound (a' * b') den :=
  Nat.div_le_div_right (Nat.add_le_add_right (Nat.mul_le_mul ha hb) _)

/-- R24: at most 9316 for an incandescent lamp, reached at full current and the lowest voltage. -/
theorem normalise_incandescent_le {im : Nat} (h : im ≤ 8190) (vm : Nat) : normalise .incandescent im vm ≤ 9316 := by
  have low : 2400000 + 55 * 24000 - 55 * clampV vm ≤ 2730000 := by have := clampV_bounds vm; omega
  exact divRound_mul_le h low 2400000

/-- R24: at most 10920 for an LED lamp, reached at full current and the highest voltage. -/
theorem normalise_led_le {im : Nat} (h : im ≤ 8190) (vm : Nat) : normalise .led im vm ≤ 10920 :=
  divRound_mul_le h (clampV_bounds vm).2 24000

/-- Settles O8: the formula by kind, and each range by its greatest current at the voltage that favours it. -/
theorem normalisedCurrentStaysInRange : Obligations.NormalisedCurrentStaysInRange := by
  intro k im vm
  refine ⟨normalise_int k im vm, fun h => ?_, fun high => ?_, fun low => ?_, rfl⟩
  · cases k with
    | incandescent =>
      have le := normalise_incandescent_le h vm
      exact ⟨by omega, fun _ => le, nofun⟩
    | led => exact ⟨normalise_led_le h vm, nofun, nofun⟩
    | feed =>
      have le : normalise .feed im vm ≤ 8190 := h
      exact ⟨by omega, nofun, fun _ => le⟩
    | notFitted => exact ⟨Nat.zero_le _, nofun, nofun⟩
  · have top : clampV vm = 32000 := by unfold clampV; omega
    simp [normalise, top, divRound]
  · have bottom : clampV vm = 18000 := by unfold clampV; omega
    simp [normalise, bottom, divRound]

/-! ## The idle step -/

/-- R148: the entries of a roster are those of its slots and of its unplaced list. -/
theorem mem_entries {r : Roster} {e : RosterEntry} :
    e ∈ r.entries ↔ (∃ i : Rank, r.slots[i] = some e) ∨ e ∈ r.unplaced := by
  simp [Roster.entries, mem_allCirc]

/-- R148: an entry's age class changes now exactly when it is FRESH at an age of 1000 or more. -/
theorem ages_iff (e : RosterEntry) (now : Ms) : e.ages now = true ↔ e.aged = false ∧ e.heard + 1000 ≤ now := by
  simp [RosterEntry.ages]

/-- R148: a roster ages exactly when some entry of it does. -/
theorem roster_ages_iff (r : Roster) (now : Ms) : r.ages now = true ↔ ∃ e ∈ r.entries, e.ages now = true := by
  have slot (i : Rank) : (r.slots[i].map (·.ages now)).getD false = true ↔ ∃ e, r.slots[i] = some e ∧ e.ages now = true := by
    cases r.slots[i] <;> simp
  unfold Roster.ages
  rw [Bool.or_eq_true, List.any_eq_true, List.any_eq_true]
  constructor
  · rintro (⟨i, _, h⟩ | ⟨e, he, h⟩)
    · obtain ⟨e, he, h⟩ := (slot i).1 h
      exact ⟨e, mem_entries.2 (.inl ⟨i, he⟩), h⟩
    · exact ⟨e, mem_entries.2 (.inr he), h⟩
  · rintro ⟨e, he, h⟩
    rcases mem_entries.1 he with ⟨i, hi⟩ | hu
    · exact .inl ⟨i, mem_allCirc i, (slot i).2 ⟨e, hi, h⟩⟩
    · exact .inr ⟨e, hu, h⟩

/-- R148: an entry aged. -/
theorem age_eq (e : RosterEntry) (now : Ms) :
    e.age now = { e with aged := e.aged || decide (e.heard + 1000 ≤ now) } := by
  unfold RosterEntry.age RosterEntry.ages
  cases h : e.aged <;> by_cases g : e.heard + 1000 ≤ now <;> simp [g] <;> simp [← h]

/-- R48: what a tick makes of the intent sampler. -/
theorem tick_intent (s : State) :
    s.tick.intent = if s.isHead = true ∧ (s.ticks + 1) % 8 = 0 then
      { s.intent with
        counts := eight fun f => readLine s.intent.debounced[f] s.pins.intents[f] s.intent.counts[f]
        crankCount := readLine s.intent.crank s.pins.crank s.intent.crankCount }
      else s.intent := by
  have e (n : Nat) : ({ s with ticks := n } : State).isHead = s.isHead := rfl
  unfold State.tick State.readIntents
  simp only [e]
  by_cases h : (s.ticks + 1) % 8 = 0
  · cases s.isHead <;> simp [h]
  · simp [h]

/-- Settles O2: the cases of an idle step, with what ageing and a tick leave. -/
theorem idleStepAgesRunsDueRowOrTicks : Obligations.IdleStepAgesRunsDueRowOrTicks := by
  intro s idle
  dsimp only
  have ripe : (∃ e ∈ s.roster.entries, e.aged = false ∧ e.heard + 1000 ≤ s.now) ↔ s.roster.ages s.now = true := by
    simp only [roster_ages_iff, ages_iff]
  rw [ripe]
  have settled : (∀ e ∈ s.roster.entries, ¬ (e.aged = false ∧ e.heard + 1000 ≤ s.now)) → s.roster.ages s.now = false := by
    intro h
    rw [← Bool.not_eq_true, ← ripe]
    rintro ⟨e, he, r⟩
    exact h e he r
  refine ⟨fun ages => ⟨s.ageEntries, by simp [step, idle, ages], rfl, fun r => ?_, ?_⟩, fun none => ⟨fun c l due => ?_,
    fun due => ⟨s.tick, ?_, (tick_frame s).1, fun unread => ?_, fun read => ?_⟩⟩⟩
  · have : s.ageEntries.roster.slots[r] = s.roster.slots[r].map (·.age s.now) := eight_get _ r
    simp only [this, age_eq]
  · show s.roster.unplaced.map (·.age s.now) = _
    simp only [age_eq]
  · simp [step, idle, settled none, due]
  · simp [step, idle, settled none, due]
  · rw [tick_intent, if_neg unread]
  · rw [tick_intent, if_pos read]
    exact ⟨rfl, rfl, fun f => eight_get _ f, rfl⟩

end Sys2Proof.Machine
end

section
/-! SUPPORT. The sense converter: the arbiter's order (R9 to R13), and the rows that end a conversion (R14 to R20, R57,
R211). -/

namespace Sys2Proof.Machine

/-! ## The arbiter -/

/-- R10: the edge-confirm queue comes first. -/
theorem release_to_confirm {s : State} {c : Circ} {rest : List Circ} (h : s.conv.confirmQueue = c :: rest) :
    s.release = { s with conv := { s.conv with grant := some ⟨.confirm c, s.ticks⟩, confirmQueue := rest } } := by
  simp [State.release, State.arbitrate, h]

/-- R11: then the spot reading. -/
theorem release_to_spot {s : State} {r : SpotRun} (queue : s.conv.confirmQueue = []) (waits : s.conv.spotWaiting = true)
    (h : s.spot.reading = some r) :
    s.release = { s with conv := { s.conv with
      grant := some ⟨.spotPair r.circuit, s.ticks⟩, spotWaiting := false, spotSinceScan := true } } := by
  simp [State.release, State.arbitrate, queue, waits, h]

/-- R12: then the scan step. -/
theorem release_to_scan {s : State} {p : Circ} (queue : s.conv.confirmQueue = [])
    (spot : s.conv.spotWaiting = false ∨ s.spot.reading = none) (h : s.conv.scanWaiting = some p) :
    s.release = { s with conv := { s.conv with
      grant := some ⟨.scanPair p, s.ticks⟩, scanWaiting := none, spotSinceScan := false
      spotWaiting := s.spot.reading.isSome } } := by
  rcases spot with spot | spot
  · simp [State.release, State.arbitrate, queue, spot, h]
  · cases w : s.conv.spotWaiting <;> simp [State.release, State.arbitrate, queue, spot, h, w]

/-- R9: and with nothing waiting the converter is free. -/
theorem release_to_none {s : State} (queue : s.conv.confirmQueue = [])
    (spot : s.conv.spotWaiting = false ∨ s.spot.reading = none) (h : s.conv.scanWaiting = none) :
    s.release = { s with conv := { s.conv with grant := none } } := by
  rcases spot with spot | spot
  · simp [State.release, State.arbitrate, queue, spot, h]
  · cases w : s.conv.spotWaiting <;> simp [State.release, State.arbitrate, queue, spot, h, w]

/-- R9: a busy converter goes on with its grant. -/
theorem arbitrate_busy {s : State} (h : s.conv.grant ≠ none) : s.arbitrate = s := by
  unfold State.arbitrate
  rw [if_pos (Option.isSome_iff_ne_none.2 h)]

/-- R9: a free converter is granted as if released now. -/
theorem arbitrate_of_free {s : State} (h : s.conv.grant = none) : s.arbitrate = s.release := by
  have e : { s with conv := { s.conv with grant := none } } = s := by rw [← h]
  unfold State.release
  rw [e]

/-- Settles O23: the arbiter's order, and a due scan step on a busy and on a free converter. -/
theorem scanStepIsGrantedOrWaits : Obligations.ScanStepIsGrantedOrWaits := by
  intro s
  refine ⟨fun c rest => release_to_confirm, fun r => release_to_spot,
    fun queue spot => ⟨fun p => release_to_scan queue spot, release_to_none queue spot⟩, fun due none => ?_⟩
  have requested : exec .scanStep s = .next (State.arbitrate { s with conv := { s.conv with
      scanWaiting := some s.conv.scanPos, scanPos := s.conv.scanPos + 1, scanDue := s.conv.scanDue + 10 } }) := by
    have : s.scanDue = true := by simp [State.scanDue, due, none]
    simp [exec, execScanStep, this, State.requestScan]
  exact ⟨fun busy => requested.trans (congrArg Host.Outcome.next (arbitrate_busy busy)),
    fun free => requested.trans (congrArg Host.Outcome.next (arbitrate_of_free free))⟩

/-- R9: what a release grants depends on the converter, the spot reading and the clock alone. -/
theorem release_conv_congr {s t : State} (conv : t.conv = s.conv) (spot : t.spot = s.spot) (ticks : t.ticks = s.ticks) :
    t.release.conv = s.release.conv := by
  unfold State.release State.arbitrate
  simp only [conv, spot, ticks]
  repeat' split
  all_goals simp_all

/-! ## PAIR_END -/

/-- R16: a voltage crosses downwards at 6000 mV, upwards at 12000 mV. -/
theorem crosses_iff (energized : Bool) (vm : Nat) :
    crosses energized vm = true ↔ energized = true ∧ vm ≤ 6000 ∨ energized = false ∧ 12000 ≤ vm := by
  cases energized <;> simp [crosses]

/-- R19: a sample is settled unless the circuit is de-energized or the sample blanked. -/
theorem settles_iff (k : Circuit) (stamp : Ms) :
    k.settles stamp = true ↔ k.energized = true ∧
      ¬ ∃ q, k.lastOn = some q ∧ stamp < q + (if k.cfg.kind = .incandescent then 60 else 20) := by
  have blanking : k.cfg.kind.blanking = if k.cfg.kind = .incandescent then 60 else 20 := by
    cases k.cfg.kind <;> rfl
  unfold Circuit.settles
  rw [blanking]
  cases k.lastOn <;> simp

theorem isFitted_iff (k : LoadKind) : k.isFitted = true ↔ k ≠ .notFitted := by cases k <;> simp [LoadKind.isFitted]

/-- R15: a sample of an unfitted circuit is discarded. -/
theorem takeSample_unfitted {s : State} {c : Circ} (h : s.circuits[c].cfg.kind = .notFitted) (vm im : Nat) (stamp : Ms) :
    s.takeSample c vm im stamp = s := by
  unfold State.takeSample
  generalize s.circuits[c] = k at *
  simp [h, LoadKind.isFitted]

/-- R10, R16: a crossing waits for its confirmation. -/
theorem takeSample_crossing {s : State} {c : Circ} {vm : Nat} (fitted : s.circuits[c].cfg.kind ≠ .notFitted)
    (cross : crosses s.circuits[c].energized vm = true) (im : Nat) (stamp : Ms) :
    s.takeSample c vm im stamp = { s.setC c { s.circuits[c] with pendingSample := some ⟨vm, im, stamp⟩ } with
      conv := { s.conv with
        confirmQueue := if c ∈ s.conv.confirmQueue then s.conv.confirmQueue else s.conv.confirmQueue ++ [c] } } := by
  have f := (isFitted_iff _).2 fitted
  unfold State.takeSample
  generalize s.circuits[c] = k at *
  simp [f, cross]

/-- R19, R20: any other sample joins the record being built where it is settled. -/
theorem takeSample_steady {s : State} {c : Circ} {vm : Nat} (fitted : s.circuits[c].cfg.kind ≠ .notFitted)
    (cross : crosses s.circuits[c].energized vm = false) (im : Nat) (stamp : Ms) :
    s.takeSample c vm im stamp =
      if s.circuits[c].settles stamp = true then s.setC c (s.circuits[c].addSample vm im) else s := by
  have f := (isFitted_iff _).2 fitted
  unfold State.takeSample
  generalize s.circuits[c] = k at *
  simp [f, cross]

/-- R15, R16, R19: a sample reaches its circuit and the edge-confirm queue alone. -/
theorem takeSample_frame (s : State) (c : Circ) (vm im : Nat) (stamp : Ms) :
    s.takeSample c vm im stamp = { s with
      circuits := (s.takeSample c vm im stamp).circuits, conv := (s.takeSample c vm im stamp).conv } := by
  unfold State.takeSample
  dsimp only
  repeat' split
  all_goals rfl

theorem takeSample_other (s : State) {c d : Circ} (h : d ≠ c) (vm im : Nat) (stamp : Ms) :
    (s.takeSample c vm im stamp).circuits[d] = s.circuits[d] := by
  unfold State.takeSample
  dsimp only
  split
  · rfl
  · split
    · exact put_other _ _ h
    · split
      · exact put_other _ _ h
      · rfl

/-- R12: after the pair the converter alone changes. -/
theorem afterPair_frame (s : State) (c : Circ) : s.afterPair c = { s with conv := (s.afterPair c).conv } := by
  unfold State.afterPair
  split
  · rfl
  · exact release_frame s

/-- R12: after the pair of C0 the supply conversion follows; after any other the converter is released. -/
theorem afterPair_conv {s u : State} {queue : List Circ} (conv : u.conv = { s.conv with confirmQueue := queue })
    (spot : u.spot = s.spot) (ticks : u.ticks = s.ticks) (c : Circ) :
    (c = 0 → (u.afterPair c).conv = { s.conv with confirmQueue := queue, grant := some ⟨.supply, s.ticks⟩ }) ∧
      (c ≠ 0 → (u.afterPair c).conv = { s with conv := { s.conv with confirmQueue := queue } }.release.conv) := by
  unfold State.afterPair
  refine ⟨fun h => ?_, fun h => ?_⟩
  · rw [if_pos h, conv, ticks]
  · rw [if_neg h]
    exact release_conv_congr conv spot ticks

theorem pairEnd_eq {s : State} {c : Circ} (h : s.endedJob = some (.scanPair c)) (v i : BitVec 12) :
    exec (.pairEnd v i) s = .next ((s.takeSample c (10 * v.toNat) (2 * i.toNat) s.stamp).afterPair c) := by
  simp [exec, execPairEnd, h, millivolts, milliamps]

/-- Settles O24: what the sample does to its circuit and queue, case by case, and what follows the pair. -/
theorem scanPairReachesDetectorOrRecord : Obligations.ScanPairReachesDetectorOrRecord := by
  intro v i c s ended
  refine ⟨_, pairEnd_eq ended v i, ?_, fun d other => ?_, ?_⟩
  · rw [afterPair_frame, takeSample_frame]
  · rw [afterPair_frame]
    exact takeSample_other s other _ _ _
  dsimp only
  rw [afterPair_frame _ c]
  simp only [← crosses_iff]
  refine ⟨fun unfitted => ?_, fun fitted cross => ?_, fun fitted steady dark => ?_, fun fitted steady lit clear => ?_⟩
  · rw [takeSample_unfitted unfitted]
    exact ⟨rfl, afterPair_conv (by rfl) (by rfl) (by rfl) c⟩
  · rw [takeSample_crossing fitted cross]
    refine ⟨put_same _ _ _, fun queued => ?_, fun new => ?_⟩
    · rw [if_pos queued]
      exact afterPair_conv (s := s) (by rfl) (by rfl) (by rfl) c
    · rw [if_neg new]
      exact afterPair_conv (s := s) (by rfl) (by rfl) (by rfl) c
  · have unsettled : ¬ s.circuits[c].settles s.stamp = true := by
      rw [settles_iff _ _]
      rintro ⟨lit, clear⟩
      rcases dark with dark | blanked
      · rw [dark] at lit; cases lit
      · exact clear blanked
    rw [takeSample_steady fitted (Bool.not_eq_true _ ▸ steady), if_neg unsettled]
    exact ⟨rfl, afterPair_conv (by rfl) (by rfl) (by rfl) c⟩
  · have settled := (settles_iff _ _).2 ⟨lit, clear⟩
    rw [takeSample_steady fitted (Bool.not_eq_true _ ▸ steady), if_pos settled]
    exact ⟨afterPair_conv (s := s) (by rfl) (by rfl) (by rfl) c, put_same _ _ _⟩

end Sys2Proof.Machine
end

section
/-! SUPPORT. The supply conversion and the edge: what the shared endings of a row leave alone, the runs of LOW SUPPLY
(R57), and an edge taken by a circuit (R17, R28, R29, R41, R43). -/

namespace Sys2Proof.Machine

/-! ## The endings that rows share -/

/-- R136: a change noted reaches the link and the telling alone. -/
theorem announce_frame (b s : State) :
    announce b s = { s with link := (announce b s).link, tell := (announce b s).tell } := by
  rcases announce_cases b s with ⟨_, e⟩ | ⟨_, e⟩ <;> rw [e]
  rcases noteChange_cases s with ⟨_, e⟩ | ⟨_, _, e⟩ <;> rw [e]
  rcases queueStatus_cases s with ⟨_, e⟩ | ⟨_, e⟩ <;> rw [e]

/-- R59: a change of coasting reaches the event queue and EVENT OVERFLOW alone. -/
theorem coastEdge_frame (b s : State) :
    coastEdge b s = { s with events := (coastEdge b s).events, flags := (coastEdge b s).flags } := by
  have raised (e : EventBody) : s.raise e = { s with events := (s.raise e).events, flags := (s.raise e).flags } := by
    rcases raise_cases s e with ⟨_, r⟩ | ⟨_, _, r⟩ | ⟨_, _, r⟩ <;> rw [r]
  rcases coastEdge_cases b s with ⟨_, e⟩ | ⟨_, _, e⟩ | ⟨_, _, e⟩ <;> rw [e]
  · exact raised _
  · exact raised _

/-- R56: neither telling, nor an event, nor the converter changes whether the station coasts. -/
theorem announce_coasting (b s : State) : (announce b s).coasting = s.coasting := by rw [announce_frame]; rfl

theorem release_coasting (s : State) : s.release.coasting = s.coasting := by rw [release_frame]; rfl

theorem coastEdge_coasting (b s : State) : (coastEdge b s).coasting = s.coasting := by rw [coastEdge_frame]; rfl

/-- R200: a head with room in its queue appends the event. -/
theorem raise_room {s : State} (head : s.isHead = true) (room : s.events.length < 16) (b : EventBody) :
    s.raise b = { s with events := s.events ++ [⟨b, s.trainSeconds⟩] } := by
  simp [State.raise, head, room]

/-- R200: a unit raises nothing. -/
theorem raise_unit {s : State} (unit : s.isHead = false) (b : EventBody) : s.raise b = s := by
  simp [State.raise, unit]

/-! ## LOW SUPPLY -/

/-- R57: a reading that counts towards a change of LOW SUPPLY. -/
def LowSupply.runs (l : LowSupply) (mv : Nat) : Prop := l.active = false ∧ mv < 18000 ∨ l.active = true ∧ 19000 ≤ mv

/-- R57: any other reading breaks the run. -/
theorem read_break {l : LowSupply} {mv : Nat} (h : ¬ l.runs mv) (stamp : Ms) : l.read mv stamp = ⟨l.active, none⟩ := by
  unfold LowSupply.runs at h
  unfold LowSupply.read
  cases a : l.active <;> simp [a] at h <;> simp <;> omega

/-- R57: a run that has lasted 100 ms changes the cause, and a shorter one goes on. -/
theorem read_run {l : LowSupply} {mv : Nat} (h : l.runs mv) (stamp : Ms) :
    l.read mv stamp = if l.runStart.getD stamp + 100 ≤ stamp then ⟨!l.active, none⟩
      else ⟨l.active, some (l.runStart.getD stamp)⟩ := by
  unfold LowSupply.runs at h
  unfold LowSupply.read
  cases a : l.active <;> simp [a] at h <;> simp [h]

/-- The state that a supply reading ends in. -/
theorem supplyConversionEnd_eq {s : State} (h : s.endedJob = some .supply) (v : BitVec 12) :
    exec (.supplyConversionEnd v) s =
      .next (announce s (coastEdge s (s.readSupply (10 * v.toNat) s.stamp)).release) := by
  simp [exec, execSupplyConversionEnd, h, millivolts]

/-- Settles O25: the reading moves LOW SUPPLY by `LowSupply.read`, and of what follows only the coast edge reaches the
event queue. -/
theorem supplyReadingMovesLowSupply : Obligations.SupplyReadingMovesLowSupply := by
  intro v s ended
  refine ⟨_, supplyConversionEnd_eq ended v, ?_⟩
  have read : (s.readSupply (10 * v.toNat) s.stamp).lowSupply = s.lowSupply.read (10 * v.toNat) s.stamp := rfl
  have isHead : (s.readSupply (10 * v.toNat) s.stamp).isHead = s.isHead := rfl
  have events : (s.readSupply (10 * v.toNat) s.stamp).events = s.events := rfl
  have flags : (s.readSupply (10 * v.toNat) s.stamp).flags = s.flags := rfl
  have seconds : (s.readSupply (10 * v.toNat) s.stamp).trainSeconds = s.trainSeconds := rfl
  have conv : (coastEdge s (s.readSupply (10 * v.toNat) s.stamp)).release.conv = s.release.conv :=
    release_conv_congr (by simp [State.readSupply]) (by simp [State.readSupply]) (by simp [State.readSupply])
  refine ⟨?_, ?_, ?_⟩
  · rw [announce_frame, release_frame, conv, coastEdge_frame]
    rfl
  · simp only [announce_lowSupply, release_lowSupply, coastEdge_lowSupply, read]
    refine ⟨fun h => read_break h _, fun runs first => ?_, fun r runs start short => ?_, fun r runs start long => ?_⟩
    · rw [read_run runs, first, Option.getD_none, if_neg (Nat.not_le.2 (Nat.lt_add_of_pos_right (by decide)))]
    · rw [read_run runs, start, Option.getD_some, if_neg (Nat.not_le.2 short), ← start]
    · rw [read_run runs, start, Option.getD_some, if_pos long]
  · simp only [announce_coasting, release_coasting, coastEdge_coasting, announce_events, release_events, announce_flags,
      release_flags]
    generalize s.readSupply (10 * v.toNat) s.stamp = u at *
    rcases coastEdge_cases s u with ⟨same, e⟩ | ⟨off, on, e⟩ | ⟨on, off, e⟩ <;> rw [e]
    · simp [same, events, flags]
    · refine ⟨?_, fun head room _ _ => ?_, fun _ _ h _ => ?_⟩
      · rintro (unit | h)
        · rw [raise_unit (isHead.trans unit)]; exact ⟨events, flags⟩
        · rw [on, off] at h; cases h
      · rw [raise_room (isHead.trans head) (events ▸ room), events, seconds]
      · rw [off] at h; cases h
    · refine ⟨?_, fun _ _ h _ => ?_, fun head room _ _ => ?_⟩
      · rintro (unit | h)
        · rw [raise_unit (isHead.trans unit)]; exact ⟨events, flags⟩
        · rw [on, off] at h; cases h
      · rw [on] at h; cases h
      · rw [raise_room (isHead.trans head) (events ▸ room), events, seconds]

end Sys2Proof.Machine
end

section
/-! SUPPORT. The voltage re-conversion (R17, R18): an edge dropped, and an edge taken by a circuit in each record mode. -/

namespace Sys2Proof.Machine

/-! ## The window assembler -/

/-- R41: in WINDOW mode an edge is counted in the open window. -/
theorem assembleEdge_window {k : Circuit} (h : k.tracker.activity = .dormant) (edge : Ms) (rising : Bool) :
    k.assembleEdge edge rising =
      ({ k with opened := k.opened.map fun r => { r with edges := satInc 255 r.edges } }, false) := by
  unfold Circuit.assembleEdge Tracker.onPhaseMode
  obtain ⟨_, _, _, _, _, tracker, opened, _, _, _, _⟩ := k
  dsimp only at h ⊢
  rw [h]
  cases opened <;> rfl

/-- R41: in ON PHASE mode an on-edge opens a record. -/
theorem assembleEdge_open {k : Circuit} (h : k.tracker.activity ≠ .dormant) (shut : k.opened = none) (edge : Ms) :
    k.assembleEdge edge true = ({ k with opened := some (Rec.open .onPhase edge true) }, false) := by
  simp [Circuit.assembleEdge, Tracker.onPhaseMode, h, shut]

/-- R41, R43: an off-edge closes the record. -/
theorem assembleEdge_close {k : Circuit} {r : Rec} (h : k.tracker.activity ≠ .dormant) (opened : k.opened = some r)
    {edge : Ms} (later : r.start ≠ edge) :
    k.assembleEdge edge false =
      ({ k.push { r with edges := satInc 255 r.edges, finish := edge } with opened := none }, true) := by
  simp [Circuit.assembleEdge, Tracker.onPhaseMode, h, opened, later]

/-- R41: or unmakes one whose start is its end. -/
theorem assembleEdge_unmake {k : Circuit} {r : Rec} (h : k.tracker.activity ≠ .dormant) (opened : k.opened = some r) :
    k.assembleEdge r.start false = ({ k with opened := none }, false) := by
  simp [Circuit.assembleEdge, Tracker.onPhaseMode, h, opened]

/-- R41, R45: the assembler reaches the record being built, the queue and the glitch tally alone. -/
theorem assembleEdge_frame (k : Circuit) (edge : Ms) (rising : Bool) :
    (k.assembleEdge edge rising).1 = { k with
      opened := (k.assembleEdge edge rising).1.opened, queue := (k.assembleEdge edge rising).1.queue
      glitch := (k.assembleEdge edge rising).1.glitch } := by
  unfold Circuit.assembleEdge
  split
  · split
    · rfl
    · rfl
    · rfl
    · split
      · rfl
      · rw [push_frame]
  · split <;> rfl

/-! ## An edge taken -/

/-- R17: a circuit whose energized state has changed, before the assembler and the tracker are told. -/
def Circuit.switched (k : Circuit) (edge : Ms) (rising : Bool) : Circuit :=
  { k with energized := rising, lastOn := if rising then some edge else k.lastOn, pendingSample := none }

/-- R17, R28, R29: the assembler is told first, and then a tracker that is not dormant. -/
theorem takeEdge_eq (k : Circuit) (edge : Ms) (rising : Bool) (reported : Option Nat) (now : Ms) :
    k.takeEdge edge rising reported now =
      let told := (k.switched edge rising).assembleEdge edge rising
      if told.1.tracker.activity = .dormant then told.1
      else if rising then { told.1 with tracker := told.1.tracker.onEdge edge now }
      else { told.1 with
        queue := if told.2 then writeNote told.1.queue (told.1.tracker.noteAt edge reported) else told.1.queue
        tracker := told.1.tracker.offEdge edge reported told.2 } := rfl

/-- R17: an edge taken reaches the energized state, its stamp, the record being built, the queue and the tracker. -/
theorem takeEdge_frame (k : Circuit) (edge : Ms) (rising : Bool) (reported : Option Nat) (now : Ms) :
    let k' := k.takeEdge edge rising reported now
    k' = { k.switched edge rising with
      opened := k'.opened, queue := k'.queue, glitch := k'.glitch, tracker := k'.tracker } := by
  have frame := assembleEdge_frame (k.switched edge rising) edge rising
  dsimp only
  rw [takeEdge_eq]
  generalize (k.switched edge rising).assembleEdge edge rising = told at *
  dsimp only
  split
  · rw [frame]
  · split <;> rw [frame]

/-- R41: a dormant tracker hears nothing of an edge; the open window counts it. -/
theorem takeEdge_dormant {k : Circuit} (h : k.tracker.activity = .dormant) (edge : Ms) (rising : Bool)
    (reported : Option Nat) (now : Ms) :
    k.takeEdge edge rising reported now = { k.switched edge rising with
      opened := k.opened.map fun r => { r with edges := satInc 255 r.edges } } := by
  rw [takeEdge_eq, assembleEdge_window (k := k.switched edge rising) h]
  exact if_pos h

/-- R28, R41: an on-edge in ON PHASE mode opens a record and is handed to the tracker. -/
theorem takeEdge_open {k : Circuit} (h : k.tracker.activity ≠ .dormant) (shut : k.opened = none) (edge : Ms)
    (reported : Option Nat) (now : Ms) :
    k.takeEdge edge true reported now = { k.switched edge true with
      opened := some (Rec.open .onPhase edge true), tracker := k.tracker.onEdge edge now } := by
  rw [takeEdge_eq, assembleEdge_open (k := k.switched edge true) h shut]
  exact if_neg h

/-- R29: a note is written into the record that was pushed. -/
theorem writeNote_push (k : Circuit) (r : Rec) (note : Option CadenceNote) :
    writeNote (k.push r).queue note = (k.push { r with note := note }).queue := by
  have last (q : List Rec) : writeNote (q ++ [r]) note = q ++ [{ r with note := note }] := by simp [writeNote]
  unfold Circuit.push
  split <;> exact last _

/-- R45: what a push makes of the queue and of the glitch tally depends on these alone. -/
theorem push_queue (k : Circuit) (r : Rec) :
    (k.push r).queue = if k.queue.length < 2 then k.queue ++ [r] else k.queue.drop 1 ++ [r] := by
  unfold Circuit.push
  split <;> rfl

theorem push_glitch (k : Circuit) (r : Rec) :
    (k.push r).glitch = if k.queue.length < 2 then k.glitch else satInc 65535 k.glitch := by
  unfold Circuit.push
  split <;> rfl

/-- R29, R41, R43: an off-edge in ON PHASE mode closes the record with its note. -/
theorem takeEdge_close {k : Circuit} {r : Rec} (h : k.tracker.activity ≠ .dormant) (opened : k.opened = some r)
    {edge : Ms} (later : r.start ≠ edge) (reported : Option Nat) (now : Ms) :
    let closed := { r with
      edges := satInc 255 r.edges, finish := edge, note := k.tracker.noteAt edge reported }
    k.takeEdge edge false reported now = { k.switched edge false with
      opened := none, queue := (k.push closed).queue, glitch := (k.push closed).glitch
      tracker := k.tracker.offEdge edge reported true } := by
  have told := assembleEdge_close (k := k.switched edge false) h opened later
  have active : ((k.switched edge false).push { r with edges := satInc 255 r.edges, finish := edge }).tracker = k.tracker := by
    rw [push_frame]; rfl
  rw [takeEdge_eq, told]
  dsimp only
  rw [active, if_neg h, if_neg (by decide), if_pos rfl, writeNote_push, push_frame]
  simp only [push_queue, push_glitch, Circuit.switched]

/-- R41: an off-edge at the start of its record unmakes it, and the tracker is told of no record. -/
theorem takeEdge_unmake {k : Circuit} {r : Rec} (h : k.tracker.activity ≠ .dormant) (opened : k.opened = some r)
    (reported : Option Nat) (now : Ms) :
    k.takeEdge r.start false reported now = { k.switched r.start false with
      opened := none, tracker := k.tracker.offEdge r.start reported false } := by
  rw [takeEdge_eq, assembleEdge_unmake (k := k.switched r.start false) h opened]
  exact if_neg h

/-! ## The reported period -/

/-- R49, R127: a COMMAND queued restarts the re-send timer and reaches the link alone; a silent station queues none. -/
theorem queueCommand_cases (s : State) :
    let source := { s.source with resendAt := s.now + 250 }
    s.isSilent = true ∧ s.queueCommand = { s with source := source } ∨
      s.isSilent = false ∧ s.queueCommand = { s with
        source := source
        link := { s.link with
          slots := { s.link.slots with command := some s.commandContent.encode }, tx := s.link.tx.queued .command } } := by
  have e (x : EpochSource) : ({ s with source := x } : State).isSilent = s.isSilent := rfl
  unfold State.queueCommand State.putSlot
  simp only [e]
  cases s.isSilent <;> simp

/-- R49, R52: a new epoch reaches the source, the ring, the circuits and the link. -/
theorem epochChange_frame (s : State) :
    s.epochChange = { s with
      source := s.epochChange.source, ring := s.epochChange.ring, circuits := s.epochChange.circuits
      link := s.epochChange.link } := by
  unfold State.epochChange
  dsimp only
  generalize hu : State.addRing _ _ = u
  rcases queueCommand_cases u with ⟨_, e⟩ | ⟨_, e⟩ <;> rw [e, ← hu] <;> rfl

/-- R37: so does looking at the reported period. -/
theorem reevaluatePeriod_frame (b s : State) :
    let t := reevaluatePeriod b s
    t = { s with source := t.source, ring := t.ring, circuits := t.circuits, link := t.link } := by
  dsimp only
  rcases reevaluatePeriod_cases b s with e | ⟨x, _, e⟩ | ⟨x, p, _, e⟩ <;> rw [e]
  rw [epochChange_frame]

/-! ## VOLTAGE_RE_CONVERSION_END -/

/-- R136: a change that is none is not noted. -/
theorem announce_same {b s : State} (h : s.news = b.news) : announce b s = s := if_pos h

/-- R136: what of a station queues a STATUS, a circuit replaced by one with the same news. -/
theorem setC_news {s : State} {c : Circ} {k : Circuit} (h : k.news = s.circuits[c].news) : (s.setC c k).news = s.news := by
  have circuits (d : Circ) : (s.setC c k).circuits[d].news = s.circuits[d].news := by
    rw [setC_circuit]
    split
    next e => rw [e, h]
    next => rfl
  unfold State.news
  simp only [circuits]
  rfl

theorem release_news (s : State) : s.release.news = s.news := by rw [release_frame]; rfl

/-- The state that a re-conversion of circuit c ends in. -/
theorem reConversionEnd_eq {s : State} {c : Circ} (h : s.endedJob = some (.confirm c)) (v : BitVec 12) :
    exec (.voltageReConversionEnd v) s = .next (announce s (s.confirmEdge c (10 * v.toNat)).release) := by
  simp [exec, execVoltageReConversionEnd, h, millivolts]

/-- R18: a re-conversion that disagrees. -/
theorem confirmEdge_drop {s : State} {c : Circ} {p : Sample} {vm : Nat} (pending : s.circuits[c].pendingSample = some p)
    (h : ¬ crosses s.circuits[c].energized vm = true) : s.confirmEdge c vm = s.setC c s.circuits[c].dropEdge := by
  unfold State.confirmEdge
  dsimp only
  rw [pending]
  exact if_neg h

/-- R17: a re-conversion that agrees. -/
theorem confirmEdge_take {s : State} {c : Circ} {p : Sample} {vm : Nat} (pending : s.circuits[c].pendingSample = some p)
    (h : crosses s.circuits[c].energized vm = true) :
    s.confirmEdge c vm = reevaluatePeriod s (s.setC c
      (s.circuits[c].takeEdge p.stamp (!s.circuits[c].energized) s.noteReference s.now)) := by
  unfold State.confirmEdge
  dsimp only
  rw [pending]
  exact if_pos h

/-- Settles O26: an edge dropped has no news; an edge taken does what `Circuit.takeEdge` does in each record mode, and of
what follows nothing reaches the circuit but the reported period. -/
theorem reConversionTakesOrDropsEdge : Obligations.ReConversionTakesOrDropsEdge := by
  intro v c p s ended pending
  dsimp only
  rw [← crosses_iff]
  refine ⟨fun disagrees => ?_, fun agrees => ⟨_, s.circuits[c].takeEdge p.stamp (!s.circuits[c].energized) s.noteReference
    s.now, reConversionEnd_eq ended v, ?_, ?_, ?_, fun dormant => ?_, fun active dark shut => ?_,
    fun r active lit opened later => ?_, fun r active lit opened atStart => ?_⟩⟩
  · have news : (s.setC c s.circuits[c].dropEdge).release.news = s.news := (release_news _).trans (setC_news rfl)
    have conv : (s.setC c s.circuits[c].dropEdge).release.conv = s.release.conv := release_conv_congr rfl rfl rfl
    rw [reConversionEnd_eq ended, confirmEdge_drop pending disagrees, announce_same news, release_frame, conv]
    rfl
  · have conv : (s.confirmEdge c (10 * v.toNat)).release.conv = s.release.conv := by
      rw [confirmEdge_take pending agrees]
      exact release_conv_congr (by simp) (by simp) (by simp)
    rw [announce_frame, release_frame, conv, confirmEdge_take pending agrees, reevaluatePeriod_frame]
    rfl
  · simp [confirmEdge_take pending agrees]
  · rw [takeEdge_frame]
    cases s.circuits[c].energized <;> rfl
  · rw [takeEdge_dormant dormant]
    exact ⟨rfl, rfl, rfl, rfl⟩
  · rw [dark, Bool.not_false, takeEdge_open active shut]
    exact ⟨rfl, rfl, rfl, rfl⟩
  · rw [lit, Bool.not_true, takeEdge_close active opened later]
    refine ⟨rfl, rfl, fun room => ?_, fun x y full => ?_⟩
    · rw [push_queue, push_glitch, if_pos room, if_pos room]
      exact ⟨rfl, rfl⟩
    · rw [push_queue, push_glitch, full]
      exact ⟨rfl, rfl⟩
  · rw [lit, Bool.not_true, ← atStart, takeEdge_unmake active opened]
    exact ⟨rfl, rfl, rfl, rfl⟩

end Sys2Proof.Machine
end

section
/-! SUPPORT. The end of a spot pair (R11, R210, R211), and the head's reported period with a new epoch (R7, R37, R49). -/

namespace Sys2Proof.Machine

/-! ## SPOT_PAIR_END -/

/-- R71, R73: the reference and the lamp estimate of a lamp's reading. -/
theorem reading_lamp {k : Circuit} (h : k.cfg.kind = .incandescent ∨ k.cfg.kind = .led) (sumV sumI : Nat) :
    let d := k.reading sumV sumI
    d.r = k.ref.iref.getD (k.cfg.n * k.cfg.rating * 10) ∧ d.m = (classifyLamp d.inorm d.n d.r).2 := by
  have lamp : k.cfg.kind.isLamp = true := by rcases h with h | h <;> rw [h] <;> rfl
  have ref : k.reference.1 = k.ref.iref.getD (k.cfg.n * k.cfg.rating * 10) := by
    unfold Circuit.reference
    cases k.ref.iref <;> rfl
  simp [Circuit.reading, lamp, ref]

/-- R211: a circuit that is no lamp reads neither. -/
theorem reading_noLamp {k : Circuit} (h : ¬ (k.cfg.kind = .incandescent ∨ k.cfg.kind = .led)) (sumV sumI : Nat) :
    (k.reading sumV sumI).r = 0 ∧ (k.reading sumV sumI).m = 0 := by
  have none : k.cfg.kind.isLamp = false := by
    cases e : k.cfg.kind with
    | incandescent => exact absurd (.inl e) h
    | led => exact absurd (.inr e) h
    | notFitted => rfl
    | feed => rfl
  simp [Circuit.reading, none]

/-- R210: a local reading reaches the query engine and the event queue. -/
theorem localReading_frame (s : State) (tag : BitVec 4) (c : Circ) (d : ReadingData) :
    let t := s.localReading tag c d
    t = { s with query := t.query, events := t.events, flags := t.flags } := by
  dsimp only
  unfold State.localReading
  split
  · rfl
  · split
    · next q _ _ =>
      unfold State.completeQuery
      rcases raise_cases { s with query := { s.query with outstanding := none, result := .done q d } }
        (.spotDone q.serial q.tag false) with ⟨_, e⟩ | ⟨_, _, e⟩ | ⟨_, _, e⟩ <;> rw [e]
    · rfl

/-- R211: a READING waits in its engine, or goes to its slot where the station may send. -/
theorem queueReading_cases (s : State) (p : BitVec 104) :
    (s.link.slots.reading ≠ none ∧ s.queueReading p = { s with spot := { s.spot with waiting := some p } }) ∨
    (s.link.slots.reading = none ∧ s.isSilent = true ∧ s.queueReading p = s) ∨
    (s.link.slots.reading = none ∧ s.isSilent = false ∧ s.queueReading p = { s with link := { s.link with
      slots := { s.link.slots with reading := some p }, tx := s.link.tx.queued .reading } }) := by
  unfold State.queueReading
  cases occupied : s.link.slots.reading with
  | some q => exact .inl ⟨nofun, rfl⟩
  | none =>
    rcases putSlot_cases s .reading (fun l => { l with reading := some p }) with ⟨silent, e⟩ | ⟨speaks, e⟩
    · exact .inr (.inl ⟨rfl, silent, e⟩)
    · exact .inr (.inr ⟨rfl, speaks, e⟩)

theorem queueReading_frame (s : State) (p : BitVec 104) :
    s.queueReading p = { s with spot := (s.queueReading p).spot, link := (s.queueReading p).link } := by
  rcases queueReading_cases s p with ⟨_, e⟩ | ⟨_, _, e⟩ | ⟨_, _, e⟩ <;> rw [e]

/-- R211: one of the first three pairs adds to the reading. -/
theorem addSpotPair_adds {r : SpotRun} (h : r.pairs < 3) (s : State) (vm im : Nat) :
    s.addSpotPair r vm im = { s with
      spot := ⟨some ⟨r.tag, r.circuit, r.pairs + 1, r.sumV + vm, r.sumI + im⟩, s.spot.waiting⟩ } :=
  if_neg (by show ¬ 4 ≤ r.pairs + 1; omega)

/-- R211: the fourth forms the result, for the head itself or for its QUERY. -/
theorem addSpotPair_forms {r : SpotRun} (h : 3 ≤ r.pairs) (s : State) (vm im : Nat) :
    let d := s.circuits[r.circuit].reading (r.sumV + vm) (r.sumI + im)
    let idle := { s with spot := { s.spot with reading := none } }
    s.addSpotPair r vm im = if s.isHead = true then idle.localReading r.tag r.circuit d
      else idle.queueReading (readingPayload r.tag r.circuit d) :=
  if_pos (by show 4 ≤ r.pairs + 1; omega)

/-- R210, R211: a spot pair leaves all but the spot engine, the query engine, the link and the event queue. -/
theorem addSpotPair_frame (s : State) (r : SpotRun) (vm im : Nat) :
    let t := s.addSpotPair r vm im
    t = { s with spot := t.spot, link := t.link, query := t.query, events := t.events, flags := t.flags } := by
  dsimp only
  by_cases h : r.pairs < 3
  · rw [addSpotPair_adds h]
  · rw [addSpotPair_forms (Nat.le_of_not_lt h)]
    split
    · rw [localReading_frame]
    · rw [queueReading_frame]

theorem spotPairEnd_eq {s : State} {c : Circ} (h : s.endedJob = some (.spotPair c)) (v i : BitVec 12) :
    exec (.spotPairEnd v i) s = .next (s.takeSpotPair c (10 * v.toNat) (2 * i.toNat)).release := by
  simp [exec, execSpotPairEnd, h, millivolts, milliamps]

/-- R11: a pair of the circuit of the reading. -/
theorem takeSpotPair_own {s : State} {r : SpotRun} (h : s.spot.reading = some r) (vm im : Nat) :
    s.takeSpotPair r.circuit vm im = s.addSpotPair r vm im := by
  unfold State.takeSpotPair
  rw [h]
  exact if_pos rfl

/-- R11: a pair of another circuit does not count. -/
theorem takeSpotPair_other {s : State} {r : SpotRun} (h : s.spot.reading = some r) {c : Circ} (other : r.circuit ≠ c)
    (vm im : Nat) : s.takeSpotPair c vm im = s := by
  unfold State.takeSpotPair
  rw [h]
  exact if_neg other

/-- R210: the head's own reading completes its query. -/
theorem localReading_completes {s : State} {q : Query} {tag : BitVec 4} {c : Circ}
    (h : s.query.outstanding = some q) (matched : q.tag = tag) (own : q.serial = s.cfg.serial) (circuit : q.circuit = c)
    (head : s.isHead = true) (room : s.events.length < 16) (d : ReadingData) :
    s.localReading tag c d = { s with
      query := { s.query with outstanding := none, result := .done q d }
      events := s.events ++ [⟨.spotDone q.serial q.tag false, s.trainSeconds⟩] } := by
  unfold State.localReading
  rw [h]
  dsimp only
  rw [if_pos (by simp [Query.matches, matched, own, circuit])]
  exact raise_room (s := { s with query := { s.query with outstanding := none, result := .done q d } }) head room _

/-- Settles O27: three pairs add, the fourth forms the reading and hands it on, and the release follows. -/
theorem fourSpotPairsFormReading : Obligations.FourSpotPairsFormReading := by
  intro v i r s ended reading
  dsimp only
  refine ⟨rfl, rfl, rfl, rfl, rfl, fun lamp => reading_lamp lamp _ _, fun none => reading_noLamp none _ _,
    ⟨_, spotPairEnd_eq ended v i, ?_⟩, fun w j o other => ⟨_, spotPairEnd_eq (s := { s with spot := ⟨some o, s.spot.waiting⟩ }) ended w j, ?_⟩⟩
  · rw [takeSpotPair_own reading]
    refine ⟨?_, ?_, fun few => ?_, fun four unit speaks free => ?_, fun four unit occupied => ?_,
      fun q four head asked tag own circuit room => ?_⟩
    · rw [release_circuits, addSpotPair_frame]
    · rw [release_spot]
      exact release_conv_congr (by rw [addSpotPair_frame]) rfl (by rw [addSpotPair_frame])
    · rw [addSpotPair_adds few, release_frame]
      exact ⟨rfl, rfl⟩
    · rw [addSpotPair_forms four.ge, if_neg (by simp [unit])]
      rcases queueReading_cases { s with spot := { s.spot with reading := none } } (readingPayload r.tag r.circuit
        (s.circuits[r.circuit].reading (r.sumV + 10 * v.toNat) (r.sumI + 2 * i.toNat)))
        with ⟨occupied, _⟩ | ⟨_, silent, _⟩ | ⟨_, _, e⟩
      · exact absurd free occupied
      · exact absurd (speaks.symm.trans silent) (by decide)
      · rw [e, release_frame]
        exact ⟨rfl, rfl, rfl⟩
    · rw [addSpotPair_forms four.ge, if_neg (by simp [unit])]
      rcases queueReading_cases { s with spot := { s.spot with reading := none } } (readingPayload r.tag r.circuit
        (s.circuits[r.circuit].reading (r.sumV + 10 * v.toNat) (r.sumI + 2 * i.toNat)))
        with ⟨_, e⟩ | ⟨free, _⟩ | ⟨free, _⟩
      · rw [e, release_frame]
        exact ⟨rfl, rfl⟩
      · exact absurd free occupied
      · exact absurd free occupied
    · rw [addSpotPair_forms four.ge, if_pos head, localReading_completes
        (s := { s with spot := { s.spot with reading := none } }) asked tag own circuit head room, release_frame]
      exact ⟨rfl, rfl, rfl, rfl⟩
  · rw [takeSpotPair_other rfl other, release_spot]

/-! ## The reported period -/

/-- The first circuit of which a condition holds. -/
theorem find_allCirc (p : Circ → Bool) (c : Circ) :
    allCirc.find? p = some c ↔ p c = true ∧ ∀ d : Circ, d < c → ¬ p d = true := by
  have get (i : Nat) (h : i < allCirc.length) : allCirc[i] = ⟨i, h⟩ := by
    have : ∀ j : Circ, allCirc[j.val]'j.isLt = j := by decide
    exact this ⟨i, h⟩
  rw [List.find?_eq_some_iff_getElem]
  constructor
  · rintro ⟨hp, i, hi, rfl, before⟩
    refine ⟨hp, fun d hd => ?_⟩
    rw [get] at hd
    have := before d.val hd
    rw [get] at this
    simpa using this
  · rintro ⟨hp, before⟩
    refine ⟨hp, c.val, c.isLt, get _ _, fun j hj => ?_⟩
    rw [get]
    simpa using before ⟨j, hj.trans c.isLt⟩ hj

/-- R7: the balance feed of a function is the lowest FEED circuit of it on a head. -/
theorem balanceFeed_iff (s : State) (f : LampFn) (c : Circ) :
    s.balanceFeed f = some c ↔
      s.isHead = true ∧ s.circuits[c].cfg.kind = .feed ∧ s.circuits[c].cfg.fn = f ∧
        ∀ d : Circ, d < c → ¬ (s.circuits[d].cfg.kind = .feed ∧ s.circuits[d].cfg.fn = f) := by
  unfold State.balanceFeed
  cases s.isHead with
  | false => simp
  | true =>
    rw [if_pos rfl, find_allCirc]
    simp only [Bool.and_eq_true, beq_iff_eq, true_and, and_assoc]

/-- R37: a LOCKED balance feed of a function. -/
theorem lockedFeed_iff (s : State) (f : LampFn) (c : Circ) :
    s.lockedFeed f = some c ↔ s.balanceFeed f = some c ∧ s.circuits[c].tracker.locked = true :=
  Option.filter_eq_some_iff

/-- R37: LEFT TURN's feed gives the period, and RIGHT TURN's where LEFT TURN has none. -/
theorem periodSource_iff (s : State) (c : Circ) :
    s.periodSource = some c ↔
      s.lockedFeed .leftTurn = some c ∨ (∀ d, ¬ s.lockedFeed .leftTurn = some d) ∧ s.lockedFeed .rightTurn = some c := by
  unfold State.periodSource
  cases s.lockedFeed .leftTurn <;> simp

/-- R37: with no source the period reported is 0. -/
theorem reevaluatePeriod_none {b s : State} (head : s.isHead = true) (h : s.periodSource = none) :
    reevaluatePeriod b s =
      if s.source.reported = 0 then { s with source := { s.source with lastSource := none } }
      else State.epochChange { s with source := { s.source with lastSource := none, reported := 0 } } := by
  unfold reevaluatePeriod
  rw [if_pos head, h]

/-- R37: a source gives its period where it is new or more than 20 ms off. -/
theorem reevaluatePeriod_some {b s : State} {c : Circ} {p : Nat} (head : s.isHead = true) (h : s.periodSource = some c)
    (hp : s.circuits[c].tracker.pbar = some p) :
    reevaluatePeriod b s =
      if b.circuits[c].tracker.locked = false ∨ s.source.lastSource ≠ some c ∨ 20 < absDiff p s.source.reported then
        if p = s.source.reported then { s with source := { s.source with lastSource := some c } }
        else State.epochChange { s with source := { s.source with lastSource := some c, reported := p } }
      else s := by
  unfold reevaluatePeriod
  rw [if_pos head, h]
  dsimp only
  rw [hp]
  simp only [Option.getD_some, Bool.or_eq_true, Bool.not_eq_true', bne_iff_ne, decide_eq_true_eq, gt_iff_lt, or_assoc]

/-- R52: an entry added to a ring with room and to a full one. -/
theorem ringAdd_eq (ring : List RingEntry) (e : RingEntry) :
    (ring.length < 8 → ringAdd ring e = ring ++ [e]) ∧ (ring.length = 8 → ringAdd ring e = ring.drop 1 ++ [e]) :=
  ⟨fun h => if_pos h, fun h => if_neg (by omega)⟩

/-- R49, R52: on a station that may send, a new epoch is entered in the ring and its COMMAND queued. -/
theorem epochChange_speaks {s : State} (speaks : s.isSilent = false) :
    s.epochChange.source = { s.source with epoch := s.source.epoch + 1, resendAt := s.now + 250 } ∧
      s.epochChange.ring = ringAdd s.ring ⟨s.source.epoch + 1, intentStates s.intent.debounced, s.source.reported,
        s.intent.crank, s.now⟩ ∧
      s.epochChange.link.slots = { s.link.slots with command := some s.epochChange.commandContent.encode } := by
  unfold State.epochChange
  dsimp only
  generalize hu : State.addRing _ _ = u
  have silent : u.isSilent = s.isSilent := by rw [← hu]; rfl
  rcases queueCommand_cases u with ⟨h, _⟩ | ⟨_, e⟩
  · exact absurd (speaks.symm.trans (silent.symm.trans h)) (by decide)
  · rw [e, ← hu]
    exact ⟨rfl, rfl, rfl⟩

/-- Settles O34: the source of the period, what each case of it brings, and the ring entry and COMMAND of a new epoch. -/
theorem reportedPeriodFollowsFeeds : Obligations.ReportedPeriodFollowsFeeds := by
  intro before s
  refine ⟨fun unit => ?_, fun head => ?_, fun speaks => ⟨_, rfl, epochChange_frame s, ?_⟩⟩
  · unfold reevaluatePeriod
    rw [if_neg (by simp [unit])]
  · have locked (f : LampFn) (c : Circ) :
        (s.circuits[c].cfg.kind = .feed ∧ s.circuits[c].cfg.fn = f ∧
            ∀ d : Circ, d < c → ¬ (s.circuits[d].cfg.kind = .feed ∧ s.circuits[d].cfg.fn = f)) ∧
          s.circuits[c].tracker.locked = true ↔ s.lockedFeed f = some c := by
      rw [lockedFeed_iff, balanceFeed_iff, head]
      simp only [true_and]
    dsimp only
    simp only [locked, ← periodSource_iff]
    refine ⟨fun none => ?_, fun c p source pbar => ?_⟩
    · rw [reevaluatePeriod_none head (Option.eq_none_iff_forall_ne_some.2 none)]
      exact ⟨fun zero => if_pos zero, fun other => if_neg other⟩
    · rw [reevaluatePeriod_some head source pbar]
      exact ⟨fun kept => if_neg kept, fun due same => by rw [if_pos due, if_pos same],
        fun due other => by rw [if_pos due, if_neg other]⟩
  · obtain ⟨source, ring, slots⟩ := epochChange_speaks speaks
    exact ⟨source, ring ▸ ringAdd_eq _ _, slots⟩

end Sys2Proof.Machine
end

section
/-! SUPPORT. The store as a start-up reset reads it: bytes and fields (R214, R219), the condition of an item (R220), the
effective circuit of a word (R5), and the reference of a record (R108). -/

namespace Sys2Proof.Machine

/-! ## Bytes and fields -/

theorem natLE_lt (bytes : List Byte) : natLE bytes < 256 ^ bytes.length := by
  induction bytes with
  | nil => exact Nat.one_pos
  | cons b bs ih =>
    have : b.toNat < 256 := b.isLt
    rw [natLE, List.length_cons, Nat.pow_succ]
    omega

/-- Three bytes fit a word of 24 bits. -/
theorem natLE_take3 (bytes : List Byte) : (BitVec.ofNat 24 (natLE (bytes.take 3))).toNat = natLE (bytes.take 3) := by
  have le : 256 ^ (bytes.take 3).length ≤ 256 ^ 3 := Nat.pow_le_pow_right (by decide) (List.length_take_le 3 bytes)
  have lt := (natLE_lt (bytes.take 3)).trans_le le
  rw [BitVec.toNat_ofNat]
  exact Nat.mod_eq_of_lt lt

/-- R219: the number that a circuit word spells. -/
def wordNat (content : List Byte) (c : Circ) : Nat := natLE ((content.drop (4 + 3 * c.val)).take 3)

theorem blockWord_toNat (content : List Byte) (c : Circ) : (blockWord content c).toNat = wordNat content c :=
  natLE_take3 _

theorem fnOfCode_code (v : BitVec 3) : (LampFn.ofCode v).code = v.toNat := by revert v; decide

theorem kindOfCode_code (v : BitVec 2) : (LoadKind.ofCode v).code = v.toNat := by revert v; decide

/-- R219: the fields of a circuit word as numbers. -/
theorem wordCfg_fields (w : BitVec 24) :
    (wordCfg w).fn.code = w.toNat % 8 ∧ (wordCfg w).kind.code = w.toNat / 8 % 4 ∧ (wordCfg w).n = w.toNat / 32 % 16 ∧
      (wordCfg w).rating = w.toNat / 512 % 1024 := by
  refine ⟨?_, ?_, ?_, ?_⟩
  · exact (fnOfCode_code _).trans (by simp)
  · exact (kindOfCode_code _).trans (by simp [Nat.shiftRight_eq_div_pow])
  · simp [wordCfg, Nat.shiftRight_eq_div_pow]
  · simp [wordCfg, Nat.shiftRight_eq_div_pow]

/-- R215: the load kinds by their codes. -/
theorem kind_code (k : LoadKind) :
    (k.code = 0 ↔ k = .notFitted) ∧ (k.code = 1 ↔ k = .incandescent) ∧ (k.code = 2 ↔ k = .led) ∧
      (k.code = 3 ↔ k = .feed) := by
  cases k <;> simp [LoadKind.code]

/-- R215, R219: the coast enable mask bit by bit. -/
theorem blockMask_eq (content : List Byte) :
    let m := content.getD 3 0#8
    blockMask content = ⟨m.getLsbD 0, m.getLsbD 1, m.getLsbD 2, m.getLsbD 3, m.getLsbD 4⟩ := by
  simp [blockMask, Causes.ofBits]

/-! ## Items -/

/-- R220: what an item reads as. -/
theorem erased_iff (bytes : List Byte) : itemCondition bytes = .erased ↔ ∀ x ∈ bytes, x = 0xFF#8 := by
  unfold itemCondition
  split
  next h => simpa using h
  next h =>
    split <;> simpa using h

theorem good_iff (bytes : List Byte) :
    itemCondition bytes = .good ↔
      (¬ ∀ x ∈ bytes, x = 0xFF#8) ∧ bytes = bytes.dropLast ++ [checkByte bytes.dropLast] := by
  have erased : (bytes.all (· == 0xFF#8)) = true ↔ ∀ x ∈ bytes, x = 0xFF#8 := by simp
  rw [← erased]
  unfold itemCondition withCheck
  split
  next h => simp [h]
  next h =>
    split
    next g => exact ⟨fun _ => ⟨h, g⟩, fun _ => rfl⟩
    next g => exact ⟨nofun, fun a => absurd a.2 g⟩

theorem bad_iff (bytes : List Byte) :
    itemCondition bytes = .bad ↔
      (¬ ∀ x ∈ bytes, x = 0xFF#8) ∧ ¬ bytes = bytes.dropLast ++ [checkByte bytes.dropLast] := by
  rw [← erased_iff]
  have g := good_iff bytes
  rw [← erased_iff] at g
  cases c : itemCondition bytes <;> simp [c] at g ⊢ <;> assumption

/-! ## The effective circuit of a word -/

theorem isLamp_iff (k : LoadKind) : k.isLamp = true ↔ k = .incandescent ∨ k = .led := by
  cases k <;> simp [LoadKind.isLamp]

/-- R5: no row of the table changes the function. -/
theorem effective_fn (role : Role) (w : CircuitCfg) : (w.effective role).1.fn = w.fn := by
  unfold CircuitCfg.effective
  repeat' split
  all_goals rfl

/-- R5: the rows that fit nothing. -/
theorem effective_unfit {role : Role} {w : CircuitCfg}
    (h : w.kind = .notFitted ∨ w.kind = .feed ∧ role = .unit ∨
      (w.kind = .incandescent ∨ w.kind = .led) ∧ (role = .head ∨ w.n = 0)) : (w.effective role).1 = w.unfit := by
  unfold CircuitCfg.effective
  rcases h with k | ⟨k, r⟩ | ⟨k | k, r⟩ <;> rw [k]
  · rw [r]
  · cases role with
    | head => rfl
    | unit => rw [if_pos (r.resolve_left nofun)]
  · cases role with
    | head => rfl
    | unit => rw [if_pos (r.resolve_left nofun)]

/-- R5: a FEED of a head. -/
theorem effective_feed {w : CircuitCfg} (h : w.kind = .feed) : w.effective .head = ({ w with n := 0, rating := 0 }, false) := by
  unfold CircuitCfg.effective
  rw [h]

/-- R5: a lamp circuit of a unit. -/
theorem effective_lamp {w : CircuitCfg} (h : w.kind = .incandescent ∨ w.kind = .led) (lamps : w.n ≠ 0) :
    w.effective .unit = (w.clampLamp, w.clampLamp != w) := by
  unfold CircuitCfg.effective
  rcases h with k | k <;> rw [k] <;> exact if_neg lamps

/-- R5: the clamps of a lamp circuit change it where a field is out of its range. -/
theorem clampLamp_ne (w : CircuitCfg) : w.clampLamp ≠ w ↔ 9 ≤ w.n ∨ w.rating = 0 ∨ 501 ≤ w.rating := by
  obtain ⟨fn, kind, n, rating⟩ := w
  simp only [CircuitCfg.clampLamp, ne_eq, CircuitCfg.mk.injEq, true_and]
  omega

/-- R5: the words that set CONFIG FAULT. -/
theorem effective_fault (role : Role) (w : CircuitCfg) :
    (w.effective role).2 = true ↔
      (w.kind = .feed ∧ role = .unit) ∨ ((w.kind = .incandescent ∨ w.kind = .led) ∧ role = .head) ∨
        ((w.kind = .incandescent ∨ w.kind = .led) ∧ (w.n = 0 ∨ 9 ≤ w.n ∨ w.rating = 0 ∨ 501 ≤ w.rating)) := by
  by_cases lamp : w.kind = .incandescent ∨ w.kind = .led
  · have noFeed : w.kind ≠ .feed := by rcases lamp with k | k <;> rw [k] <;> decide
    cases role with
    | head =>
      have fault : (w.effective .head).2 = true := by
        unfold CircuitCfg.effective
        rcases lamp with k | k <;> rw [k]
      simp [fault, lamp]
    | unit =>
      by_cases none : w.n = 0
      · have fault : (w.effective .unit).2 = true := by
          unfold CircuitCfg.effective
          rcases lamp with k | k <;> rw [k] <;> simp only [none, if_true]
        simp [fault, lamp, none]
      · rw [effective_lamp lamp none]
        simp only [bne_iff_ne, clampLamp_ne, noFeed, lamp, none]
        simp
  · cases role with
    | head =>
      unfold CircuitCfg.effective
      cases k : w.kind <;> simp [k] at lamp ⊢
    | unit =>
      unfold CircuitCfg.effective
      cases k : w.kind <;> simp [k] at lamp ⊢

/-! ## The reference of a record -/

/-- R108: a circuit that is no lamp, or an erased record. -/
theorem fromRecord_none {cfg : CircuitCfg} {bytes : List Byte}
    (h : cfg.kind.isLamp = false ∨ itemCondition bytes = .erased) :
    RefUnit.fromRecord cfg bytes = (.unlearned, false) := by
  unfold RefUnit.fromRecord
  rcases h with h | h
  · simp [h]
  · simp [h]

/-- R108: a bad record. -/
theorem fromRecord_bad {cfg : CircuitCfg} {bytes : List Byte} (lamp : cfg.kind.isLamp = true)
    (h : itemCondition bytes = .bad) :
    RefUnit.fromRecord cfg bytes = ({ RefUnit.unlearned with outcome := .recordBad }, true) := by
  unfold RefUnit.fromRecord
  rw [if_pos lamp, h]

/-- R108: a good record, adopted or discarded. -/
theorem fromRecord_good {cfg : CircuitCfg} {bytes : List Byte} (lamp : cfg.kind.isLamp = true)
    (h : itemCondition bytes = .good) :
    RefUnit.fromRecord cfg bytes = if cfg.adopts (natLE bytes.dropLast) = true then
        ({ RefUnit.unlearned with learn := .learned, iref := some (natLE bytes.dropLast), save := .saved }, false)
      else ({ RefUnit.unlearned with outcome := .recordDiscarded }, false) := by
  unfold RefUnit.fromRecord
  rw [if_pos lamp, h]

/-- R108: the records that set STORE FAULT. -/
theorem fromRecord_fault (cfg : CircuitCfg) (bytes : List Byte) :
    (RefUnit.fromRecord cfg bytes).2 = true ↔ cfg.kind.isLamp = true ∧ itemCondition bytes = .bad := by
  cases lamp : cfg.kind.isLamp with
  | false => simp [fromRecord_none (.inl lamp)]
  | true =>
    cases c : itemCondition bytes with
    | erased => simp [fromRecord_none (.inr c)]
    | bad => simp [fromRecord_bad lamp c]
    | good =>
      rw [fromRecord_good lamp c]
      split <;> simp

/-- R97, R108: no record leaves a circuit LEARNING. -/
theorem fromRecord_idle (cfg : CircuitCfg) (bytes : List Byte) :
    (RefUnit.fromRecord cfg bytes).1.k = 0 ∧ (RefUnit.fromRecord cfg bytes).1.learn ≠ .learning := by
  cases lamp : cfg.kind.isLamp with
  | false => rw [fromRecord_none (.inl lamp)]; exact ⟨rfl, nofun⟩
  | true =>
    cases c : itemCondition bytes with
    | erased => rw [fromRecord_none (.inr c)]; exact ⟨rfl, nofun⟩
    | bad => rw [fromRecord_bad lamp c]; exact ⟨rfl, nofun⟩
    | good =>
      rw [fromRecord_good lamp c]
      split <;> exact ⟨rfl, nofun⟩

/-- R103: the adoption window of a circuit. -/
theorem adopts_iff (cfg : CircuitCfg) (iref : Nat) :
    cfg.adopts iref = true ↔ 1 ≤ iref ∧ iref ≤ 10920 ∧ (cfg.n * cfg.rating * 10 + 1) / 2 ≤ iref ∧
      iref ≤ (3 * (cfg.n * cfg.rating * 10) + 1) / 2 := by
  simp only [CircuitCfg.adopts, Bool.and_eq_true, decide_eq_true_eq, and_assoc]
  exact ⟨fun ⟨low, high, one, top⟩ => ⟨one, top, low, high⟩, fun ⟨one, top, low, high⟩ => ⟨low, high, one, top⟩⟩

end Sys2Proof.Machine
end

section
/-! SUPPORT. What a start-up reset leaves (R25, R139): the start-up values with what the station queues at once. -/

namespace Sys2Proof.Machine

/-! ## The straps -/

theorem roleOf_head (p : Pins) : p.roleOf = .head ↔ p.role = true := by
  unfold Pins.roleOf
  cases p.role <;> decide

theorem roleOf_unit (p : Pins) : p.roleOf = .unit ↔ p.role = false := by
  unfold Pins.roleOf
  cases p.role <;> decide

/-! ## What is queued at once -/

/-- R49, R61: the COMMAND of epoch 0. -/
def firstCommand : BitVec 64 := CommandContent.encode ⟨0, .replicate 8 .off, 0, false, true, 0⟩

/-- R25, R127, R139: the link of a station after its start-up reset, given its first STATUS. -/
def linkAtStart (speaks head : Bool) (status : BitVec 288) : Link :=
  if speaks then
    { Link.start with tx := .waitGap, slots := ⟨if head then some firstCommand else none, none, none, none, some status⟩ }
  else .start

theorem startValues_commandContent (s : State) :
    s.startValues.commandContent = ⟨0, .replicate 8 .off, 0, false, true, 0⟩ := by
  have off : intentStates (Vector.replicate 8 false) = .replicate 8 .off := by decide
  show CommandContent.mk 0 (intentStates (Vector.replicate 8 false)) 0 false _ _ = _
  have young : s.startValues.count < 2000 := by
    show (0 : Nat) / 8 % 2 ^ 32 < 2000
    decide
  have unread : s.startValues.vs.getD 0 / 10 = 0 := by
    show 0 / 10 = 0
    decide
  rw [off, decide_eq_true young, unread]

theorem startValues_now (s : State) : s.startValues.now = 0 := by
  show 0 / 8 = 0
  decide

theorem startValues_isSilent (s : State) : s.startValues.isSilent = !validSerial s.startValues.cfg.serial := by
  show (!validSerial s.startValues.cfg.serial || false) = _
  rw [Bool.or_false]

theorem startValues_isHead (s : State) : s.startValues.isHead = s.pins.role := by
  show decide (s.pins.roleOf = .head) = s.pins.role
  simp [roleOf_head]

/-- R136: a STATUS queued at 0 leaves the timers at their start-up values. -/
theorem queueStatus_atStart {s : State} (now : s.now = 0) (timers : s.tell = State.reset.tell) :
    s.queueStatus = s.putSlot .status fun sl => { sl with status := some s.report.encode } := by
  have same : Telling.mk (s.now + 500) (s.now + 100) false s.tell.expiredAt s.tell.clashEnd = s.tell := by
    rw [now, timers]
    rfl
  unfold State.queueStatus
  dsimp only
  rw [same]

/-- R49: a COMMAND queued at 0 leaves the re-send timer at its start-up value. -/
theorem queueCommand_atStart {s : State} (now : s.now = 0) (timer : s.source = State.reset.source) :
    s.queueCommand = s.putSlot .command fun sl => { sl with command := some s.commandContent.encode } := by
  have same : EpochSource.mk s.source.epoch (s.now + 250) s.source.reported s.source.lastSource = s.source := by
    rw [now, timer]
    rfl
  unfold State.queueCommand
  dsimp only
  rw [same]

theorem putSlot_silent {s : State} (silent : s.isSilent = true) (k : TKind) (f : Slots → Slots) : s.putSlot k f = s :=
  if_pos silent

theorem putSlot_speaks {s : State} (speaks : s.isSilent = false) (k : TKind) (f : Slots → Slots) :
    s.putSlot k f = { s with link := { s.link with slots := f s.link.slots, tx := s.link.tx.queued k } } := by
  unfold State.putSlot
  rw [speaks]
  rfl

/-- R25: a start-up reset leaves the start-up values and the link with what was queued. -/
theorem startUp_eq (s : State) : s.startUp = { s.startValues with
    link := linkAtStart (validSerial s.startValues.cfg.serial) s.pins.role s.startValues.report.encode } := by
  have speech := startValues_isSilent s
  have now := startValues_now s
  unfold State.startUp linkAtStart firstCommand
  rw [queueStatus_atStart now rfl, ← startValues_commandContent s, ← startValues_isHead s]
  cases valid : validSerial s.startValues.cfg.serial with
  | false =>
    have silent : s.startValues.isSilent = true := by rw [speech, valid]; rfl
    rw [putSlot_silent silent]
    dsimp only
    split
    · rw [queueCommand_atStart now rfl, putSlot_silent silent]
      rfl
    · rfl
  | true =>
    have speaks : s.startValues.isSilent = false := by rw [speech, valid]; rfl
    rw [putSlot_speaks speaks]
    dsimp only
    split
    next isHead =>
      have head : s.startValues.isHead = true := isHead
      rw [head, queueCommand_atStart (by exact now) (by rfl), putSlot_speaks (by exact speaks)]
      rfl
    next isUnit =>
      have head : s.startValues.isHead = false := Bool.eq_false_iff.mpr isUnit
      rw [head]
      rfl

/-! ## The fields -/

theorem startUp_store (s : State) : s.startUp.store = s.leftStore := by rw [startUp_eq]; rfl

theorem startUp_cfg (s : State) : s.startUp.cfg = s.leftStore.stationCfg s.pins := by rw [startUp_eq]; rfl

theorem startUp_flags (s : State) : s.startUp.flags = s.leftStore.flags s.pins.roleOf := by rw [startUp_eq]; rfl

theorem startUp_circuit (s : State) (c : Circ) :
    s.startUp.circuits[c] =
      .start (s.leftStore.circuitCfg s.pins.roleOf c).1 (s.leftStore.refUnit s.pins.roleOf c).1 := by
  rw [startUp_eq]
  exact eight_get _ c

theorem startUp_circuit_cfg (s : State) (c : Circ) :
    s.startUp.circuits[c].cfg = (s.leftStore.circuitCfg s.pins.roleOf c).1 := by
  rw [startUp_circuit]
  rfl

/-- R108: the reference of a circuit is read from its record. -/
theorem startUp_circuit_ref (s : State) (c : Circ) :
    s.startUp.circuits[c].ref = (RefUnit.fromRecord s.startUp.circuits[c].cfg s.startUp.store.refs[c]).1 := by
  rw [startUp_circuit, startUp_store]
  rfl

theorem startUp_link (s : State) :
    s.startUp.link = linkAtStart (validSerial s.startUp.cfg.serial) s.pins.role s.startUp.report.encode := by
  rw [startUp_eq]
  rfl

/-- R61, R142: the head holds rank 0 and the epoch-0 entry. -/
theorem startUp_head {s : State} (h : s.pins.role = true) :
    s.startUp.rank = ⟨.ranked 0, none, 0, none, none⟩ ∧ s.startUp.ring = [⟨0, .replicate 8 .off, 0, false, 0⟩] := by
  have role := (roleOf_head s.pins).mpr h
  rw [startUp_eq]
  refine ⟨congrArg RankUnit.start role, ?_⟩
  exact if_pos role

/-- R61, R142: a unit seeks a rank, holds no entry, and lacks a COMMAND and a rank. -/
theorem startUp_unit {s : State} (h : s.pins.role = false) :
    s.startUp.rank = ⟨.acquiring, none, 0, some 500, none⟩ ∧ s.startUp.ring = [] ∧
      s.startUp.activeCauses = ⟨false, false, true, false, true⟩ := by
  have role := (roleOf_unit s.pins).mpr h
  have unit : s.startValues.isHead = false := (startValues_isHead s).trans h
  have rank : s.startValues.rank = ⟨.acquiring, none, 0, some 500, none⟩ := congrArg RankUnit.start role
  have ring : s.startValues.ring = [] := by
    rw [startValues_ring, role]
    rfl
  rw [startUp_eq]
  refine ⟨rank, ring, ?_⟩
  show s.startValues.activeCauses = _
  unfold State.activeCauses
  rw [unit, rank, ring]
  rfl

/-! ## The start-up checks -/

/-- R4, R220: the condition of the configuration block. -/
theorem blockGood_iff (t : Store) :
    t.blockGood = true ↔
      (¬ ∀ x ∈ t.config, x = 0xFF#8) ∧ t.config = t.config.dropLast ++ [checkByte t.config.dropLast] := by
  unfold Store.blockGood
  rw [beq_iff_eq]
  exact good_iff t.config

/-- R4: a bad block leaves no circuit fitted. -/
theorem circuitCfg_bad {t : Store} (bad : t.blockGood = false) (role : Role) (c : Circ) :
    t.circuitCfg role c = (.erased, false) := by
  unfold Store.circuitCfg
  rw [bad]
  rfl

theorem circuitCfg_good {t : Store} (good : t.blockGood = true) (role : Role) (c : Circ) :
    t.circuitCfg role c = (wordCfg (blockWord t.config.dropLast c)).effective role := if_pos good

/-- R4: a bad block leaves no serial and every cause enabled. -/
theorem stationCfg_bad {t : Store} (bad : t.blockGood = false) (p : Pins) :
    (t.stationCfg p).serial = 0xFFFFFF#24 ∧ (t.stationCfg p).coastMask = .all := by
  unfold Store.stationCfg
  rw [bad]
  exact ⟨rfl, rfl⟩

/-- R219: the serial and the coast enable mask of a good block. -/
theorem stationCfg_good {t : Store} (good : t.blockGood = true) (p : Pins) :
    (t.stationCfg p).serial.toNat = natLE (t.config.dropLast.take 3) ∧
      (t.stationCfg p).coastMask = blockMask t.config.dropLast := by
  unfold Store.stationCfg
  rw [good]
  exact ⟨natLE_take3 _, rfl⟩

/-- R4: a bad block sets both flags. -/
theorem flags_bad {t : Store} (bad : t.blockGood = false) (role : Role) :
    (t.flags role).storeFault = true ∧ (t.flags role).configFault = true := by
  unfold Store.flags
  rw [bad]
  exact ⟨rfl, rfl⟩

/-- R5: CONFIG FAULT is a bad block or a word out of the table. -/
theorem configFault_iff (t : Store) (role : Role) :
    (t.flags role).configFault = true ↔ ¬ t.blockGood = true ∨ ∃ c, (t.circuitCfg role c).2 = true := by
  simp [Store.flags, mem_allCirc]

/-- R108: STORE FAULT is a bad block or a bad record of a lamp. -/
theorem storeFault_iff (t : Store) (role : Role) :
    (t.flags role).storeFault = true ↔ ¬ t.blockGood = true ∨ ∃ c, (t.refUnit role c).2 = true := by
  simp [Store.flags, mem_allCirc]

/-! ## The words -/

/-- R219: the kind of a stored word, by its code. -/
theorem word_kind (content : List Byte) (c : Circ) :
    let kind := (wordCfg (blockWord content c)).kind
    let code := wordNat content c / 8 % 4
    (kind = .notFitted ↔ code = 0) ∧ (kind = .incandescent ↔ code = 1) ∧ (kind = .led ↔ code = 2) ∧
      (kind = .feed ↔ code = 3) := by
  obtain ⟨_, code, _, _⟩ := wordCfg_fields (blockWord content c)
  obtain ⟨none, incandescent, led, feed⟩ := kind_code (wordCfg (blockWord content c)).kind
  rw [blockWord_toNat] at code
  rw [code] at none incandescent led feed
  exact ⟨none.symm, incandescent.symm, led.symm, feed.symm⟩

/-- R219: the other fields of a stored word. -/
theorem word_fields (content : List Byte) (c : Circ) :
    let w := wordCfg (blockWord content c)
    let code := wordNat content c
    w.fn.code = code % 8 ∧ w.n = code / 32 % 16 ∧ w.rating = code / 512 % 1024 := by
  obtain ⟨fn, _, n, rating⟩ := wordCfg_fields (blockWord content c)
  rw [blockWord_toNat] at fn n rating
  exact ⟨fn, n, rating⟩

/-- R5: the words of a block that set CONFIG FAULT, by their codes. -/
theorem word_fault_iff (content : List Byte) (p : Pins) (c : Circ) :
    let kind := wordNat content c / 8 % 4
    let n := wordNat content c / 32 % 16
    let rating := wordNat content c / 512 % 1024
    ((wordCfg (blockWord content c)).effective p.roleOf).2 = true ↔
      (kind = 3 ∧ p.role = false) ∨ ((kind = 1 ∨ kind = 2) ∧ p.role = true) ∨
        ((kind = 1 ∨ kind = 2) ∧ (n = 0 ∨ 9 ≤ n ∨ rating = 0 ∨ 501 ≤ rating)) := by
  obtain ⟨_, incandescent, led, feed⟩ := word_kind content c
  obtain ⟨_, n, rating⟩ := word_fields content c
  dsimp only
  rw [effective_fault, incandescent, led, feed, n, rating, roleOf_unit, roleOf_head]

/-- R5: a word that leaves its circuit NOT FITTED. -/
theorem word_unfit {content : List Byte} {p : Pins} {c : Circ}
    (h : wordNat content c / 8 % 4 = 0 ∨ wordNat content c / 8 % 4 = 3 ∧ p.role = false ∨
      (wordNat content c / 8 % 4 = 1 ∨ wordNat content c / 8 % 4 = 2) ∧
        (p.role = true ∨ wordNat content c / 32 % 16 = 0)) :
    ((wordCfg (blockWord content c)).effective p.roleOf).1 = (wordCfg (blockWord content c)).unfit := by
  obtain ⟨none, incandescent, led, feed⟩ := word_kind content c
  obtain ⟨_, n, _⟩ := word_fields content c
  apply effective_unfit
  rw [none, incandescent, led, feed, n, roleOf_unit, roleOf_head]
  exact h

/-- R5: the word of a FEED on a head. -/
theorem word_feed {content : List Byte} {p : Pins} {c : Circ} (feed : wordNat content c / 8 % 4 = 3) (head : p.role = true) :
    let k := ((wordCfg (blockWord content c)).effective p.roleOf).1
    k.kind = .feed ∧ k.n = 0 ∧ k.rating = 0 := by
  obtain ⟨_, _, _, kind⟩ := word_kind content c
  rw [(roleOf_head p).mpr head, effective_feed (kind.mpr feed)]
  exact ⟨kind.mpr feed, rfl, rfl⟩

/-- R5: the word of a lamp circuit on a unit. -/
theorem word_lamp {content : List Byte} {p : Pins} {c : Circ}
    (lamp : wordNat content c / 8 % 4 = 1 ∨ wordNat content c / 8 % 4 = 2) (unit : p.role = false)
    (lamps : wordNat content c / 32 % 16 ≠ 0) :
    let k := ((wordCfg (blockWord content c)).effective p.roleOf).1
    k.kind = (if wordNat content c / 8 % 4 = 1 then .incandescent else .led) ∧ k.n = min (wordNat content c / 32 % 16) 8 ∧
      k.rating = max 1 (min (wordNat content c / 512 % 1024) 500) := by
  obtain ⟨_, incandescent, led, _⟩ := word_kind content c
  obtain ⟨_, n, rating⟩ := word_fields content c
  have kinds := lamp.imp incandescent.mpr led.mpr
  have some : (wordCfg (blockWord content c)).n ≠ 0 := by rwa [n]
  rw [(roleOf_unit p).mpr unit, effective_lamp kinds some]
  refine ⟨?_, by rw [← n]; rfl, by rw [← rating]; rfl⟩
  show (wordCfg (blockWord content c)).kind = _
  split
  next one => exact incandescent.mpr one
  next other => exact led.mpr (lamp.resolve_left other)

end Sys2Proof.Machine
end

section
/-! SUPPORT. What a start-up reset reads (O59) and leaves (O60). -/

namespace Sys2Proof.Machine

/-- R4, R5: a bad block leaves a circuit with no load. -/
theorem startUp_circuit_bad {s : State} (bad : s.leftStore.blockGood = false) (c : Circ) :
    s.startUp.circuits[c].cfg = .erased := by
  rw [startUp_circuit_cfg, circuitCfg_bad bad]

/-- R5: the effective circuit of a good block's word. -/
theorem startUp_circuit_good {s : State} (good : s.leftStore.blockGood = true) (c : Circ) :
    s.startUp.circuits[c].cfg = ((wordCfg (blockWord s.leftStore.config.dropLast c)).effective s.pins.roleOf).1 := by
  rw [startUp_circuit_cfg, circuitCfg_good good]

/-- R5: what sets CONFIG FAULT at the start. -/
theorem startUp_configFault_iff (s : State) :
    let content := s.leftStore.config.dropLast
    let kind := fun c : Circ => wordNat content c / 8 % 4
    let n := fun c : Circ => wordNat content c / 32 % 16
    let rating := fun c : Circ => wordNat content c / 512 % 1024
    s.startUp.flags.configFault = true ↔ ¬ s.leftStore.blockGood = true ∨ ∃ c,
      (kind c = 3 ∧ s.pins.role = false) ∨ ((kind c = 1 ∨ kind c = 2) ∧ s.pins.role = true) ∨
        ((kind c = 1 ∨ kind c = 2) ∧ (n c = 0 ∨ 9 ≤ n c ∨ rating c = 0 ∨ 501 ≤ rating c)) := by
  rw [startUp_flags, configFault_iff]
  cases good : s.leftStore.blockGood with
  | false => exact ⟨fun _ => .inl nofun, fun _ => .inl nofun⟩
  | true =>
    apply or_congr Iff.rfl
    exact exists_congr fun c => by rw [circuitCfg_good good]; exact word_fault_iff _ _ c

/-- R108: what sets STORE FAULT at the start. -/
theorem startUp_storeFault_iff (s : State) :
    s.startUp.flags.storeFault = true ↔ ¬ s.leftStore.blockGood = true ∨ ∃ c : Circ,
      (s.startUp.circuits[c].cfg.kind = .incandescent ∨ s.startUp.circuits[c].cfg.kind = .led) ∧
        (¬ ∀ x ∈ s.startUp.store.refs[c], x = 0xFF#8) ∧
          ¬ s.startUp.store.refs[c] =
            s.startUp.store.refs[c].dropLast ++ [checkByte s.startUp.store.refs[c].dropLast] := by
  rw [startUp_flags, storeFault_iff]
  apply or_congr Iff.rfl
  refine exists_congr fun c => ?_
  rw [startUp_circuit_cfg, startUp_store, ← isLamp_iff, ← bad_iff]
  exact fromRecord_fault _ _

/-- R108: a circuit's reference unit from its record, row by row. -/
theorem fromRecord_rows {cfg : CircuitCfg} {item : List Byte} {u : RefUnit} (h : u = (RefUnit.fromRecord cfg item).1) :
    let figure := natLE item.dropLast
    let nominal := cfg.n * cfg.rating * 10
    let fits := 1 ≤ figure ∧ figure ≤ 10920 ∧ (nominal + 1) / 2 ≤ figure ∧ figure ≤ (3 * nominal + 1) / 2
    let lamp := cfg.kind = .incandescent ∨ cfg.kind = .led
    let erased := ∀ x ∈ item, x = 0xFF#8
    let agrees := item = item.dropLast ++ [checkByte item.dropLast]
    (¬ lamp ∨ erased → u = ⟨.unlearned, none, 0, 0, none, none, .none, .none⟩) ∧
      (lamp → ¬ erased → ¬ agrees → u = ⟨.unlearned, none, 0, 0, none, none, .recordBad, .none⟩) ∧
      (lamp → ¬ erased → agrees → ¬ fits → u = ⟨.unlearned, none, 0, 0, none, none, .recordDiscarded, .none⟩) ∧
      (lamp → ¬ erased → agrees → fits → u = ⟨.learned, some figure, 0, 0, none, none, .none, .saved⟩) := by
  have good (e : ¬ ∀ x ∈ item, x = 0xFF#8) (a : item = item.dropLast ++ [checkByte item.dropLast]) :=
    (good_iff item).mpr ⟨e, a⟩
  dsimp only
  rw [h, ← adopts_iff, ← isLamp_iff]
  refine ⟨fun none => ?_, fun lamp e a => ?_, fun lamp e a out => ?_, fun lamp e a fits => ?_⟩
  · rw [fromRecord_none (none.imp Bool.eq_false_iff.mpr (erased_iff item).mpr)]
    rfl
  · rw [fromRecord_bad lamp ((bad_iff item).mpr ⟨e, a⟩)]
    rfl
  · rw [fromRecord_good lamp (good e a), if_neg out]
    rfl
  · rw [fromRecord_good lamp (good e a), if_pos fits]
    rfl

/-- R5, R219: a circuit of a good block, row by row. -/
theorem startUp_circuit_rows {s : State} (good : s.leftStore.blockGood = true) (c : Circ) :
    let word := wordNat s.leftStore.config.dropLast c
    let kind := word / 8 % 4
    let n := word / 32 % 16
    let k := s.startUp.circuits[c].cfg
    k.fn.code = word % 8 ∧
      (kind = 0 ∨ kind = 3 ∧ s.pins.role = false ∨ (kind = 1 ∨ kind = 2) ∧ (s.pins.role = true ∨ n = 0) →
        k.kind = .notFitted ∧ k.n = 0 ∧ k.rating = 0) ∧
      (kind = 3 → s.pins.role = true → k.kind = .feed ∧ k.n = 0 ∧ k.rating = 0) ∧
      (kind = 1 ∨ kind = 2 → s.pins.role = false → n ≠ 0 →
        k.kind = (if kind = 1 then .incandescent else .led) ∧ k.n = min n 8 ∧
          k.rating = max 1 (min (word / 512 % 1024) 500)) := by
  obtain ⟨fn, _, _⟩ := word_fields s.leftStore.config.dropLast c
  dsimp only
  rw [startUp_circuit_good good]
  refine ⟨?_, fun unfit => ?_, word_feed, word_lamp⟩
  · rw [effective_fn]
    exact fn
  · rw [word_unfit unfit]
    exact ⟨rfl, rfl, rfl⟩

/-- Settles O59: each row of R5 and of R108 from the field of the block or the record that it reads. -/
theorem effectiveConfiguration : Obligations.EffectiveConfiguration := by
  unfold Obligations.EffectiveConfiguration
  intro s
  refine ⟨balanceFeed_iff s, s.startUp, rfl, ?_⟩
  have store := startUp_store s
  have good := blockGood_iff s.leftStore
  intro block content erased agrees sound word kind n rating wrong badRecord
  have checked : s.leftStore.blockGood = true ↔ sound := by
    rw [← store] at good ⊢
    exact good
  have contents : s.leftStore.config.dropLast = content := by rw [← store]
  refine ⟨?_, ?_, ?_, ?_, fun bad => ?_, fun intact => ?_, fun c => fromRecord_rows (startUp_circuit_ref s c)⟩
  · rw [startUp_cfg]
    rfl
  · rw [startUp_cfg]
    rfl
  · rw [← checked]
    have fault := startUp_configFault_iff s
    rw [contents] at fault
    exact fault
  · rw [← checked]
    exact startUp_storeFault_iff s
  · have bad : s.leftStore.blockGood = false := Bool.eq_false_iff.mpr (mt checked.mp bad)
    obtain ⟨serial, mask⟩ := stationCfg_bad bad s.pins
    rw [startUp_cfg]
    refine ⟨serial, mask, fun c => ?_⟩
    rw [startUp_circuit_bad bad]
    exact ⟨rfl, rfl, rfl⟩
  · have intact := checked.mpr intact
    obtain ⟨serial, mask⟩ := stationCfg_good intact s.pins
    rw [contents] at serial mask
    rw [startUp_cfg]
    refine ⟨⟨serial, mask.trans (blockMask_eq content)⟩, fun c => ?_⟩
    have rows := startUp_circuit_rows intact c
    rw [contents] at rows
    exact rows

/-- R61, R108: a circuit after the start. -/
theorem startUp_circuit_idle (s : State) (c : Circ) :
    let k := s.startUp.circuits[c]
    k.energized = false ∧ k.lastOn = none ∧
      k.opened = (if k.cfg.kind = .notFitted then none else some (Rec.open .window 0 false)) ∧
      k.pendingSample = none ∧ k.glitch = 0 ∧ k.tracker = .dormant ∧ k.queue = [] ∧ k.last = none ∧
      k.filter = .start k.cfg.n ∧ k.ref.k = 0 ∧ k.ref.learn ≠ .learning := by
  dsimp only
  rw [startUp_circuit]
  generalize (s.leftStore.circuitCfg s.pins.roleOf c).1 = cfg
  have opened : (if cfg.kind.isFitted = true then some (Rec.open .window 0 false) else none) =
      if cfg.kind = .notFitted then none else some (Rec.open .window 0 false) := by
    simp [isFitted_iff]
  obtain ⟨count, idle⟩ := fromRecord_idle (s.leftStore.circuitCfg s.pins.roleOf c).1 s.leftStore.refs[c]
  exact ⟨rfl, rfl, opened, rfl, rfl, rfl, rfl, rfl, rfl, count, idle⟩

/-- R139: what every station's link starts from. -/
theorem startUp_link_start (s : State) :
    let l := s.startUp.link
    l.receiver = .hunt ∧ l.presence = .listening ∧ l.errors = ⟨0, 0, 0, 0, 0, 0⟩ ∧ l.cutRecord = [] ∧ l.stuckHold = false ∧
      l.badRun = 0 ∧ l.driveFaults = 0 ∧ l.aloneAt = some 2000 ∧ l.gapNs = 0 ∧ l.driverNs = 0 ∧ l.lineNs = 0 := by
  dsimp only
  rw [startUp_link]
  unfold linkAtStart
  split <;> exact ⟨rfl, rfl, rfl, rfl, rfl, rfl, rfl, rfl, rfl, rfl, rfl⟩

theorem startUp_link_speaks {s : State} (h : validSerial s.startUp.cfg.serial = true) :
    s.startUp.link.tx = .waitGap ∧ s.startUp.link.slots = ⟨if s.pins.role = true then
      some (CommandContent.encode ⟨0, .replicate 8 .off, 0, false, true, 0⟩) else none,
      none, none, none, some s.startUp.report.encode⟩ := by
  rw [startUp_link, h]
  exact ⟨rfl, rfl⟩

theorem startUp_link_silent {s : State} (h : validSerial s.startUp.cfg.serial = false) :
    s.startUp.link.tx = .idle ∧ s.startUp.link.slots = ⟨none, none, none, none, none⟩ := by
  rw [startUp_link, h]
  exact ⟨rfl, rfl⟩

/-- R4: what a bad block leaves. -/
theorem startUp_bad {s : State} (h : itemCondition s.startUp.store.config ≠ .good) :
    s.startUp.flags.storeFault = true ∧ s.startUp.flags.configFault = true ∧
      s.startUp.cfg.serial = 0xFFFFFF#24 ∧ s.startUp.cfg.coastMask = .all ∧
      ∀ c : Circ, s.startUp.circuits[c].cfg.kind = .notFitted := by
  rw [startUp_store] at h
  have bad : s.leftStore.blockGood = false := beq_eq_false_iff_ne.mpr h
  obtain ⟨store, config⟩ := flags_bad bad s.pins.roleOf
  obtain ⟨serial, mask⟩ := stationCfg_bad bad s.pins
  rw [startUp_flags, startUp_cfg]
  exact ⟨store, config, serial, mask, fun c => by rw [startUp_circuit_bad bad]; rfl⟩

/-- R111: what becomes of the store at the start. -/
theorem startUp_store_cases (s : State) :
    (s.writes.current = none → s.startUp.store = s.store) ∧
      ∀ w, s.writes.current = some w →
        s.startUp.store = s.store ∨ s.startUp.store = s.store.write w.item w.bytes ∨
          ∃ bad, itemCondition bad = .bad ∧ s.startUp.store = s.store.write w.item bad := by
  rw [startUp_store]
  rcases leftStore_cases s with ⟨none, e⟩ | ⟨w, some, e⟩
  · exact ⟨fun _ => e, fun w some => absurd (none.symm.trans some) nofun⟩
  · exact ⟨fun none => absurd (none.symm.trans some) nofun, fun v same => by cases some.symm.trans same; exact e⟩

/-- R206: a RESTART whose frame is in progress is a start-up reset. -/
theorem restart_eq {s : State} (h : s.port.frame = some .reply ∨ s.port.frame = some .noRequest) :
    exec .restart s = exec .startUpReset s := by
  have acts : s.atRelease State.startUp = s.startUp := by
    unfold State.atRelease
    rcases h with h | h <;> rw [h] <;> rfl
  exact congrArg Host.Outcome.next acts

/-- Settles O60: the start-up values (`startUp_eq`), with each field that straps, store or queue decide from its lemma. -/
theorem startUpResetLeaves : Obligations.StartUpResetLeaves := by
  unfold Obligations.StartUpResetLeaves
  intro s
  refine ⟨restart_eq, s.startUp, rfl, startUp_pending s, startUp_pins s, ?_⟩
  obtain ⟨receiver, presence, errors, cutRecord, stuckHold, badRun, driveFaults, aloneAt, gapNs, driverNs, lineNs⟩ :=
    startUp_link_start s
  have role : s.startUp.cfg.role = if s.pins.role = true then .head else .unit := by rw [startUp_cfg]; rfl
  have flags : s.startUp.flags = { Flags.clear with
      storeFault := s.startUp.flags.storeFault, configFault := s.startUp.flags.configFault } := by
    rw [startUp_flags]
    rfl
  have eq := startUp_eq s
  generalize linkAtStart _ _ _ = link at eq
  obtain ⟨still, cases⟩ := startUp_store_cases s
  refine ⟨?_, role, ?_, ?_, ?_, ?_, ?_, ?_, ?_, ?_, ?_, ?_, ?_, ?_, ?_, startUp_circuit_idle s, ?_, ?_, ?_, ?_, ?_, ?_, ?_, ?_,
    ?_, startUp_head, startUp_unit, receiver, presence, errors, cutRecord, stuckHold, badRun, driveFaults, aloneAt, gapNs,
    driverNs, lineNs, startUp_link_speaks, startUp_link_silent, flags, startUp_bad, still, cases⟩
  all_goals
    rw [eq]
    rfl

end Sys2Proof.Machine
end

section
/-! SUPPORT. The cadence tracker case by case (R26 to R36), and what the chapter's operations keep of one circuit. -/

namespace Sys2Proof.Machine

/-! ## An on-edge (R28, R30, R31) -/

/-- R28, R32: what an on-edge leaves of a tracker that has taken its candidate period. -/
def Tracker.retime (t : Tracker) (edge : Ms) : Tracker :=
  { t with
    prevOn := some edge, phaseStart := some edge, miss := 0
    compareAt := if t.locked then some (compareTime edge (t.pbar.getD 0)) else t.compareAt
    silenceAt := if t.locked = false ∧ t.activity = .active then some (edge + 2000) else t.silenceAt }

/-- R28: an on-edge is a candidate period taken, and then the timers. -/
theorem onEdge_eq (t : Tracker) (edge now : Ms) : t.onEdge edge now = (t.candidate edge now).retime edge := by
  unfold Tracker.onEdge Tracker.retime
  generalize t.candidate edge now = u
  cases hl : u.locked
  · by_cases ha : u.activity = .active <;> simp [hl, ha]
  · simp [hl]

/-- R28: no previous on-edge, or a missed flash since, gives no candidate. -/
theorem candidate_none {t : Tracker} (h : t.prevOn = none ∨ 0 < t.miss) (edge now : Ms) : t.candidate edge now = t := by
  unfold Tracker.candidate
  rcases h with h | h
  · rw [h]
  · cases t.prevOn <;> simp [h]

/-- R28: too long a gap. -/
theorem candidate_gap {t : Tracker} {q edge : Ms} (h : t.prevOn = some q) (unmissed : t.miss = 0) (gap : 2000 < edge - q)
    (now : Ms) : t.candidate edge now = if t.locked then t.unlock now else { t with window := [] } := by
  simp [Tracker.candidate, h, unmissed, gap]

/-- R28: a period that the tracker takes by its lock state. -/
theorem candidate_take {t : Tracker} {q edge : Ms} (h : t.prevOn = some q) (unmissed : t.miss = 0)
    (near : edge - q ≤ 2000) (now : Ms) :
    t.candidate edge now = if t.locked then t.takeLocked (edge - q) now else t.takeUnlocked (edge - q) := by
  simp [Tracker.candidate, h, unmissed, Nat.not_lt.2 near]

/-- R28: all that a candidate period can do. -/
theorem candidate_cases (t : Tracker) (edge now : Ms) :
    t.candidate edge now = t ∨
    (t.locked = true ∧ t.candidate edge now = t.unlock now) ∨
    (t.locked = false ∧ t.candidate edge now = { t with window := [] }) ∨
    (∃ p, t.locked = true ∧ t.candidate edge now = t.takeLocked p now) ∨
    (∃ p, t.locked = false ∧ t.candidate edge now = t.takeUnlocked p) := by
  by_cases skip : t.prevOn = none ∨ 0 < t.miss
  · exact .inl (candidate_none skip edge now)
  · obtain ⟨some, unmissed⟩ := not_or.1 skip
    obtain ⟨q, prev⟩ := Option.ne_none_iff_exists'.1 some
    have unmissed : t.miss = 0 := by omega
    by_cases gap : 2000 < edge - q
    · rw [candidate_gap prev unmissed gap]
      cases t.locked <;> simp
    · rw [candidate_take prev unmissed (Nat.not_lt.1 gap)]
      cases t.locked
      · exact .inr (.inr (.inr (.inr ⟨_, rfl, rfl⟩)))
      · exact .inr (.inr (.inr (.inl ⟨_, rfl, rfl⟩)))

/-- R30: the window after a candidate period, the oldest of four given up. -/
theorem slide_window (w : List Nat) (p : Nat) :
    (if (w ++ [p]).length = 5 then (w ++ [p]).drop 1 else w ++ [p]) =
      if w.length = 4 then w.drop 1 ++ [p] else w ++ [p] := by
  by_cases full : w.length = 4
  · rw [if_pos (by simp [full]), if_pos full, List.drop_append_of_le_length (by omega)]
  · rw [if_neg (by simpa using full), if_neg full]

/-- R30: an UNLOCKED tracker locks exactly when the sliding window holds four periods that agree. -/
theorem takeUnlocked_eq (t : Tracker) (p : Nat) :
    let w := if t.window.length = 4 then t.window.drop 1 ++ [p] else t.window ++ [p]
    let m := meanPeriod w
    t.takeUnlocked p =
      if w.length = 4 ∧ ∀ x ∈ w, absDiff x m * 20 ≤ m then
        { t with window := w, locked := true, pbar := some m, disagree := 0, miss := 0, silenceAt := none }
      else { t with window := w } := by
  dsimp only
  unfold Tracker.takeUnlocked
  dsimp only
  rw [slide_window]
  simp only [Bool.and_eq_true, decide_eq_true_eq, List.all_eq_true]

/-- R31: a LOCKED tracker's period, good, disagreeing or the third that disagrees. -/
theorem takeLocked_eq {t : Tracker} {m : Nat} (h : t.pbar = some m) (p now : Nat) :
    t.takeLocked p now =
      if absDiff p m * 10 ≤ m then
        { t with window := t.window.drop 1 ++ [p], pbar := some (meanPeriod (t.window.drop 1 ++ [p])), disagree := 0 }
      else if 2 ≤ t.disagree then t.unlock now
      else { t with disagree := t.disagree + 1 } := by
  simp [Tracker.takeLocked, h]

/-! ## An off-edge (R29, R35, R36) -/

/-- R29: an off-edge without a phase start measures nothing. -/
theorem noteAt_noPhase {t : Tracker} (h : t.phaseStart = none) (edge : Ms) (reported : Option Nat) :
    t.noteAt edge reported = none := by
  simp [Tracker.noteAt, h]

/-- R35: an UNLOCKED tracker forms no note. -/
theorem noteAt_unlocked {t : Tracker} (h : t.locked = false) (edge : Ms) (reported : Option Nat) :
    t.noteAt edge reported = none := by
  unfold Tracker.noteAt
  cases t.phaseStart <;> simp [h]

/-- R35: the note of a LOCKED tracker. -/
theorem noteAt_locked {t : Tracker} {p m : Nat} (phase : t.phaseStart = some p) (locked : t.locked = true)
    (mean : t.pbar = some m) (edge : Ms) (reported : Option Nat) :
    t.noteAt edge reported = formNote m (edge - p) reported := by
  simp [Tracker.noteAt, phase, locked, mean]

/-- R29: what an off-edge measures. -/
theorem offEdge_phase {t : Tracker} {p : Nat} (h : t.phaseStart = some p) (edge : Ms) (reported : Option Nat)
    (closed : Bool) :
    t.offEdge edge reported closed = { t with
      lastT := some (edge - p), phaseStart := none
      latestNote := if closed = true then t.noteAt edge reported else t.latestNote } := by
  unfold Tracker.offEdge
  rw [h]

theorem offEdge_noPhase {t : Tracker} (h : t.phaseStart = none) (edge : Ms) (reported : Option Nat) (closed : Bool) :
    t.offEdge edge reported closed = { t with latestNote := if closed = true then none else t.latestNote } := by
  unfold Tracker.offEdge
  rw [noteAt_noPhase h, h]

/-- R36: whether a mean period lies more than 40 ms off a reported period that is not 0. -/
def mismatched (m : Nat) (reported : Option Nat) : Bool := reported.any fun r => r != 0 && decide (40 < absDiff m r)

theorem mismatched_iff (m : Nat) (reported : Option Nat) :
    mismatched m reported = true ↔ ∃ r, reported = some r ∧ r ≠ 0 ∧ 40 < absDiff m r := by
  cases reported <;> simp [mismatched]

/-- R35: a note is formed of its three findings, and only if one is found. -/
theorem formNote_eq (m onTime : Nat) (reported : Option Nat) :
    let d := (onTime * 100 + m / 2) / m
    formNote m onTime reported =
      if m < 500 ∨ 1250 < m ∨ d < 30 ∨ 75 < d ∨ mismatched m reported = true then
        some ⟨m < 500 || 1250 < m, d < 30 || 75 < d, mismatched m reported, m, onTime, d⟩
      else none := by
  cases reported <;> simp [formNote, mismatched, or_assoc]

/-- R35, R36: which periods, duties and differences a note finds. -/
theorem formNote_findings (m onTime : Nat) (reported : Option Nat) :
    let d := (onTime * 100 + m / 2) / m
    let period := m < 500 ∨ 1250 < m
    let duty := d < 30 ∨ 75 < d
    let mismatch := ∃ r, reported = some r ∧ r ≠ 0 ∧ 40 < absDiff m r
    (¬ (period ∨ duty ∨ mismatch) → formNote m onTime reported = none) ∧
      (period ∨ duty ∨ mismatch → ∃ n, formNote m onTime reported = some n ∧ n.pbar = m ∧ n.onTime = onTime ∧
        n.dutyPercent = d ∧ (n.period = true ↔ period) ∧ (n.duty = true ↔ duty) ∧ (n.mismatch = true ↔ mismatch)) := by
  dsimp only
  rw [← mismatched_iff, formNote_eq]
  simp only [or_assoc]
  exact ⟨fun none => if_neg none, fun found => ⟨_, if_pos found, rfl, rfl, rfl, by simp, by simp, Iff.rfl⟩⟩

/-- Settles O22: an on-edge by its candidate period and then the timers, an off-edge by its phase start. -/
theorem cadenceOnEdgesAndNotes : Obligations.CadenceOnEdgesAndNotes := by
  intro t edge now
  dsimp only
  refine ⟨fun unlocked => ⟨fun skip => ?_, fun q prev unmissed gap => ?_, fun q prev unmissed near _ => ?_⟩,
    fun p locked mean => ⟨fun skip => ?_, fun q prev unmissed => ⟨fun near good => ?_, fun near bad few => ?_, fun out => ?_⟩⟩,
    fun reported closed => ⟨fun none => ?_, fun p phase unlocked => ?_, fun p m phase locked mean => ?_⟩⟩
  · rw [onEdge_eq, candidate_none skip]
    simp [Tracker.retime, unlocked]
  · rw [onEdge_eq, candidate_gap prev unmissed gap]
    simp [Tracker.retime, unlocked]
  · rw [onEdge_eq, candidate_take prev unmissed near, unlocked, if_neg Bool.false_ne_true, takeUnlocked_eq]
    generalize (if t.window.length = 4 then t.window.drop 1 ++ [edge - q] else t.window ++ [edge - q]) = w
    refine ⟨fun agree => ?_, fun differ => ?_⟩
    · rw [meanPeriod, if_pos agree]
      simp [Tracker.retime, compareTime]
    · rw [meanPeriod, if_neg differ]
      simp [Tracker.retime, unlocked]
  · rw [onEdge_eq, candidate_none skip]
    simp [Tracker.retime, locked, mean, compareTime]
  · rw [onEdge_eq, candidate_take prev unmissed near, locked, if_pos rfl, takeLocked_eq mean, if_pos good]
    simp [Tracker.retime, locked, compareTime, meanPeriod]
  · rw [onEdge_eq, candidate_take prev unmissed near, locked, if_pos rfl, takeLocked_eq mean, if_neg bad, if_neg (by omega)]
    simp [Tracker.retime, locked, mean, compareTime]
  · have unlocks : t.candidate edge now = t.unlock now := by
      by_cases gap : 2000 < edge - q
      · rw [candidate_gap prev unmissed gap, if_pos locked]
      · obtain ⟨bad, third⟩ := out.resolve_left gap
        rw [candidate_take prev unmissed (Nat.not_lt.1 gap), if_pos locked, takeLocked_eq mean, if_neg bad, if_pos third]
    rw [onEdge_eq, unlocks]
    by_cases active : t.activity = .active <;> simp [Tracker.retime, Tracker.unlock, active]
  · exact ⟨noteAt_noPhase none _ _, offEdge_noPhase none _ _ _, offEdge_noPhase none _ _ _⟩
  · rw [offEdge_phase phase, noteAt_unlocked unlocked]
    exact ⟨rfl, rfl⟩
  · rw [offEdge_phase phase, noteAt_locked phase locked mean]
    obtain ⟨clean, found⟩ := formNote_findings m (edge - p) reported
    exact ⟨clean, found, rfl⟩

end Sys2Proof.Machine
end

section
/-! SUPPORT. The laws of one circuit (R26, R45, R83, R97, R103) under the operations of chapters 2, 3 and 6. -/

namespace Sys2Proof.Machine

/-! ## The law of a tracker -/

/-- R26, R30, R31, R34: what goes with each lock state. -/
theorem trackerLaw_iff (t : Tracker) :
    t.law = true ↔ t.disagree ≤ 2 ∧ t.miss ≤ 2 ∧
      (t.locked = true → t.window.length = 4 ∧ t.pbar.isSome = true ∧ t.compareAt.isSome = true ∧ t.silenceAt = none ∧
        t.activity ≠ .dormant) ∧
      (t.locked = false → t.window.length ≤ 4 ∧ t.pbar = none ∧ t.compareAt = none ∧ t.disagree = 0 ∧ t.miss = 0 ∧
        t.silenceAt.isSome = decide (t.activity = .active)) := by
  cases hl : t.locked <;> simp [Tracker.law, hl, and_assoc]
  intros
  rfl

/-- R31: a LOCKED tracker's period keeps the law. -/
theorem takeLocked_law {t : Tracker} (h : t.law = true) (locked : t.locked = true) (p now : Nat) :
    (t.takeLocked p now).law = true := by
  rcases takeLocked_cases t p now with e | ⟨few, e⟩ | ⟨_, e⟩ <;> rw [e]
  · rw [trackerLaw_iff] at h ⊢
    obtain ⟨_, miss, held, _⟩ := h
    obtain ⟨window, _, timer, silence, active⟩ := held locked
    exact ⟨Nat.zero_le _, miss, fun _ => ⟨by simp [window], rfl, timer, silence, active⟩, fun u => by simp_all⟩
  · rw [trackerLaw_iff] at h ⊢
    obtain ⟨_, miss, held, _⟩ := h
    exact ⟨by show t.disagree + 1 ≤ 2; omega, miss, held, fun u => by simp_all⟩
  · exact unlock_law h now

/-- R28, R32, R34: the timers after an on-edge keep the law. -/
theorem retime_law {t : Tracker} (h : t.law = true) (edge : Ms) : (t.retime edge).law = true := by
  rw [trackerLaw_iff] at h ⊢
  obtain ⟨disagree, _, held, free⟩ := h
  refine ⟨disagree, Nat.zero_le _, fun locked => ?_, fun unlocked => ?_⟩
  · obtain ⟨window, mean, _, silence, active⟩ := held locked
    exact ⟨window, mean, by simp_all [Tracker.retime], by simp_all [Tracker.retime], active⟩
  · obtain ⟨window, mean, timer, none, _, silence⟩ := free unlocked
    refine ⟨window, mean, by simp_all [Tracker.retime], none, rfl, ?_⟩
    by_cases active : t.activity = .active <;> simp_all [Tracker.retime]

/-- R28, R30 to R32: an on-edge handed to a tracker that is not dormant. -/
theorem onEdge_law {t : Tracker} (h : t.law = true) (awake : t.activity ≠ .dormant) (edge now : Ms) :
    (t.onEdge edge now).law = true := by
  rw [onEdge_eq]
  rcases candidate_cases t edge now with e | ⟨_, e⟩ | ⟨unlocked, e⟩ | ⟨p, locked, e⟩ | ⟨p, unlocked, e⟩ <;> rw [e]
  · exact retime_law h edge
  · exact retime_law (unlock_law h now) edge
  · refine retime_law ?_ edge
    rw [trackerLaw_iff] at h ⊢
    obtain ⟨disagree, miss, held, free⟩ := h
    exact ⟨disagree, miss, fun l => by simp_all, fun u => ⟨Nat.zero_le _, (free u).2⟩⟩
  · exact retime_law (takeLocked_law h locked p now) edge
  · rw [trackerLaw_iff] at h
    obtain ⟨disagree, miss, held, free⟩ := h
    obtain ⟨window, rest⟩ := free unlocked
    rcases takeUnlocked_cases t p window with ⟨w, short, e⟩ | ⟨w, four, e⟩ <;> rw [e]
    · refine retime_law ?_ edge
      rw [trackerLaw_iff]
      exact ⟨disagree, miss, fun l => by simp_all, fun _ => ⟨short, rest⟩⟩
    · simp [trackerLaw_iff, Tracker.retime, four, awake]

/-- R29: an off-edge reaches nothing that the law speaks of. -/
theorem offEdge_law (t : Tracker) (edge : Ms) (reported : Option Nat) (closed : Bool) :
    (t.offEdge edge reported closed).law = t.law := rfl

/-- R26: a dormant tracker. -/
theorem dormant_law : Tracker.dormant.law = true := by decide

/-- R27: an activated tracker is UNLOCKED with a silence deadline. -/
theorem activate_law (lastOn : Option Ms) (energized : Bool) (now : Ms) :
    (Tracker.activate lastOn energized now).law = true := by
  simp [trackerLaw_iff, Tracker.activate, Tracker.dormant]

/-- R27: a LINGERING tracker has no silence deadline. -/
theorem linger_law {t : Tracker} (h : t.law = true) (now : Ms) : (t.linger now).law = true := by
  rw [trackerLaw_iff] at h ⊢
  simp_all [Tracker.linger]

/-- R27, R34: a resumed tracker has a silence deadline exactly when it is UNLOCKED. -/
theorem resume_law {t : Tracker} (h : t.law = true) (now : Ms) : (t.resume now).law = true := by
  rw [trackerLaw_iff] at h ⊢
  simp_all [Tracker.resume]

/-! ## One circuit -/

/-- The laws of a circuit pass from one value of it to another. -/
structure Circuit.Passes (k k' : Circuit) : Prop where
  filter : k.filter.law = true → k'.filter.law = true
  queue : k.queue.length ≤ 2 → k'.queue.length ≤ 2
  tracker : k.tracker.law = true → k'.tracker.law = true
  ref : k.refLaw = true → k'.refLaw = true

theorem Circuit.Passes.refl (k : Circuit) : k.Passes k := ⟨id, id, id, id⟩

theorem Circuit.Passes.trans {k l m : Circuit} (h : k.Passes l) (g : l.Passes m) : k.Passes m where
  filter := g.filter ∘ h.filter
  queue := g.queue ∘ h.queue
  tracker := g.tracker ∘ h.tracker
  ref := g.ref ∘ h.ref

/-- Every field that a law of a circuit speaks of. -/
def Circuit.ruled (k : Circuit) := (k.cfg, k.filter, k.queue, k.tracker, k.ref)

/-- A circuit that differs in other fields alone. -/
theorem Circuit.Passes.same {k k' : Circuit} (h : k'.ruled = k.ruled) : k.Passes k' := by
  simp only [Circuit.ruled, Prod.mk.injEq] at h
  obtain ⟨cfg, filter, queue, tracker, ref⟩ := h
  refine ⟨by rw [filter]; exact id, by rw [queue]; exact id, by rw [tracker]; exact id, ?_⟩
  unfold Circuit.refLaw
  rw [cfg, ref]
  exact id

/-! ## Records -/

theorem push_passes (k : Circuit) (r : Rec) : k.Passes (k.push r) := by
  rw [push_frame]
  exact { Circuit.Passes.refl k with queue := fun h => push_bound h r }

theorem closeForMode_passes (k : Circuit) (now : Ms) : k.Passes (k.closeForMode now) := by
  rcases closeForMode_cases k now with ⟨_, e⟩ | ⟨_, _, _, e⟩ | ⟨_, _, _, e⟩ <;> rw [e]
  · exact .refl k
  · exact .same rfl
  · exact (push_passes k _).trans (.same rfl)

theorem toOnPhase_passes (k : Circuit) (now : Ms) : k.Passes (k.toOnPhase now) := by
  unfold Circuit.toOnPhase
  dsimp only
  split
  · exact (closeForMode_passes k now).trans (.same rfl)
  · exact closeForMode_passes k now

theorem toWindow_passes (k : Circuit) (now : Ms) : k.Passes (k.toWindow now) :=
  (closeForMode_passes k now).trans (.same rfl)

theorem closeWindow_passes (k : Circuit) (r : Rec) : k.Passes (k.closeWindow r) := (push_passes k _).trans (.same rfl)

theorem closeHeldOn_passes (k : Circuit) (r : Rec) : k.Passes (k.closeHeldOn r) := (push_passes k _).trans (.same rfl)

/-- A tracker replaced by one that keeps the law. -/
theorem tracker_passes {k : Circuit} {t : Tracker} (h : k.tracker.law = true → t.law = true) :
    k.Passes { k with tracker := t } :=
  { Circuit.Passes.refl k with tracker := h }

/-! ## FLASHING, edges and deadlines -/

theorem flashingChange_passes (k : Circuit) (flashing : Bool) (now : Ms) : k.Passes (k.flashingChange flashing now) := by
  unfold Circuit.flashingChange
  split
  · split
    · exact (tracker_passes fun _ => activate_law _ _ now).trans (toOnPhase_passes _ now)
    · exact tracker_passes fun h => resume_law h now
    · exact tracker_passes fun h => linger_law h now
    all_goals exact .refl k
  · exact .refl k

theorem assembleEdge_passes (k : Circuit) (edge : Ms) (rising : Bool) : k.Passes (k.assembleEdge edge rising).1 := by
  unfold Circuit.assembleEdge
  split
  · split
    · exact .same rfl
    · exact .refl k
    · exact .same rfl
    · split
      · exact .same rfl
      · exact (push_passes k _).trans (.same rfl)
  · split
    · exact .refl k
    · exact .same rfl

/-- R29: a note is written into a record that waits already. -/
theorem writeNote_length (q : List Rec) (note : Option CadenceNote) : (writeNote q note).length = q.length := by
  unfold writeNote
  split
  · rfl
  next last =>
    have := List.length_pos_of_mem (List.mem_of_getLast? last)
    simp; omega

theorem takeEdge_passes (k : Circuit) (edge : Ms) (rising : Bool) (reported : Option Nat) (now : Ms) :
    k.Passes (k.takeEdge edge rising reported now) := by
  have told : k.Passes ((k.switched edge rising).assembleEdge edge rising).1 :=
    .trans (l := k.switched edge rising) (.same rfl) (assembleEdge_passes _ edge rising)
  rw [takeEdge_eq]
  generalize (k.switched edge rising).assembleEdge edge rising = told at *
  dsimp only
  split
  · exact told
  next awake =>
    split
    · exact told.trans (tracker_passes fun h => onEdge_law h awake edge now)
    · refine told.trans { Circuit.Passes.refl _ with
        queue := fun h => ?_, tracker := fun h => (offEdge_law _ _ _ _).trans h }
      dsimp only
      split
      · rwa [writeNote_length]
      · exact h

/-- R32, R33: a compare time is reached, in a LOCKED tracker. -/
theorem missFlash_passes {k : Circuit} (locked : k.tracker.locked = true) (at_ now : Ms) :
    k.Passes (k.missFlash at_ now) := by
  have counts (few : k.tracker.miss < 2) : k.Passes { k with tracker := { k.tracker with
      miss := k.tracker.miss + 1, compareAt := some (at_ + k.tracker.pbar.getD 0) } } := by
    refine tracker_passes fun h => ?_
    rw [trackerLaw_iff] at h ⊢
    simp_all
  unfold Circuit.missFlash
  dsimp only
  split
  · refine tracker_passes fun h => ?_
    have law := unlock_law h now
    rw [trackerLaw_iff] at law ⊢
    exact law
  next third =>
    split
    · exact (counts (by omega)).trans (push_passes _ _)
    · exact counts (by omega)

/-- R34: a silence deadline is reached, in an UNLOCKED, ACTIVE tracker. -/
theorem silence_passes {k : Circuit} (unlocked : k.tracker.locked = false) (active : k.tracker.activity = .active)
    (at_ : Ms) : k.Passes (k.silence at_) := by
  have later : k.Passes { k with tracker := { k.tracker with silenceAt := some (at_ + 2000) } } := by
    refine tracker_passes fun h => ?_
    rw [trackerLaw_iff] at h ⊢
    simp_all
  unfold Circuit.silence
  dsimp only
  split
  · exact later
  · exact later.trans (push_passes _ _)

theorem fallDormant_passes (k : Circuit) (now : Ms) : k.Passes (k.fallDormant now) :=
  (tracker_passes fun _ => dormant_law).trans (toWindow_passes _ now)

/-! ## Filters and references -/

theorem filter_passes (k : Circuit) (e : Evidence) : k.Passes { k with filter := (k.filter.take e).1 } :=
  { Circuit.Passes.refl k with filter := fun h => take_law h e }

/-- R97, R103: what the law of a reference says. -/
theorem refLaw_iff (k : Circuit) :
    k.refLaw = true ↔ (∀ x, k.ref.iref = some x → k.cfg.adopts x = true) ∧
      (k.ref.learn = .learned → k.ref.iref.isSome = true) ∧ k.ref.k < 8 ∧
      (k.cfg.kind.isLamp = true ∨ k.ref.learn = .unlearned) := by
  cases h : k.ref.iref <;> simp [Circuit.refLaw, h, and_assoc]

/-- A reference unit replaced by one that keeps the law. -/
theorem ref_passes {k : Circuit} {r : RefUnit} (h : k.refLaw = true → ({ k with ref := r } : Circuit).refLaw = true) :
    k.Passes { k with ref := r } :=
  { Circuit.Passes.refl k with ref := h }

/-- R100: a lamp circuit enters LEARNING. -/
theorem enter_passes {k : Circuit} (lamp : k.cfg.kind.isLamp = true) (e : Byte) (now : Ms) :
    k.Passes { k with ref := k.ref.enter e now } := by
  refine ref_passes fun h => ?_
  rw [refLaw_iff] at h ⊢
  obtain ⟨window, _⟩ := h
  exact ⟨window, nofun, Nat.zero_lt_succ _, .inl lamp⟩

/-- R98, R104, R105: a LEARNING circuit fails. -/
theorem fail_passes {k : Circuit} (learning : k.ref.learn = .learning) (why : LearnOutcome) :
    k.Passes { k with ref := k.ref.fail why } := by
  refine ref_passes fun h => ?_
  rw [refLaw_iff] at h ⊢
  obtain ⟨window, _, _, lamp⟩ := h
  refine ⟨window, fun learned => ?_, Nat.zero_lt_succ _, .inl (lamp.resolve_right (by simp [learning]))⟩
  cases iref : k.ref.iref with
  | none => simp [RefUnit.fail, RefUnit.previous, iref] at learned
  | some x => exact congrArg Option.isSome iref

/-- R103: a LEARNING circuit adopts a reference within its window. -/
theorem adopt_passes {k : Circuit} (learning : k.ref.learn = .learning) {iref : Nat} (adopts : k.cfg.adopts iref = true) :
    k.Passes { k with ref := k.ref.adopt iref } := by
  refine ref_passes fun h => ?_
  rw [refLaw_iff] at h ⊢
  obtain ⟨_, _, _, lamp⟩ := h
  exact ⟨fun x same => Option.some.inj same ▸ adopts, fun _ => rfl, Nat.zero_lt_succ _,
    .inl (lamp.resolve_right (by simp [learning]))⟩

/-- R101: a sample counted. -/
theorem count_passes (k : Circuit) {n : Nat} (few : n < 8) (sum : Nat) :
    k.Passes { k with ref := { k.ref with k := n, sum := sum } } := by
  refine ref_passes fun h => ?_
  rw [refLaw_iff] at h ⊢
  obtain ⟨window, learned, _, lamp⟩ := h
  exact ⟨window, learned, few, lamp⟩

/-- R109: no save state enters the law. -/
theorem save_passes (k : Circuit) (v : SaveState) : k.Passes { k with ref := { k.ref with save := v } } :=
  ref_passes id

end Sys2Proof.Machine
end

section
/-! SUPPORT. What leaves every circuit and every balance filter as it was: the operations of the events, the pending set,
the converter, the queries, the fault list, the roster, the link and the port. -/

namespace Sys2Proof.Machine

/-- What the laws of the circuits and of the filters speak of. -/
def State.ruled (s : State) := (s.circuits, s.balance.filters)

/-- Two states with the same circuits and the same balance filters. -/
theorem ruled_eq {s t : State} (circuits : t.circuits = s.circuits) (balance : t.balance = s.balance) :
    t.ruled = s.ruled := by
  unfold State.ruled
  rw [circuits, balance]

theorem foldl_ruled {α : Type} {f : State → α → State} (h : ∀ s a, (f s a).ruled = s.ruled) (l : List α) (s : State) :
    (l.foldl f s).ruled = s.ruled := by
  induction l generalizing s with
  | nil => rfl
  | cons a l ih => exact (ih _).trans (h s a)

theorem ite_ruled {s t : State} {p : Prop} [Decidable p] (h : t.ruled = s.ruled) :
    (if p then t else s).ruled = s.ruled := by
  split
  · exact h
  · rfl

/-! ## The shared operations -/

theorem raise_ruled (s : State) (b : EventBody) : (s.raise b).ruled = s.ruled := ruled_eq (by simp) (by simp)

theorem coastEdge_ruled (b s : State) : (coastEdge b s).ruled = s.ruled := ruled_eq (by simp) (by simp)

theorem putSlot_ruled (s : State) (k : TKind) (f : Slots → Slots) : (s.putSlot k f).ruled = s.ruled :=
  ruled_eq (by simp) (by simp)

theorem queueStatus_ruled (s : State) : s.queueStatus.ruled = s.ruled := ruled_eq (by simp) (by simp)

theorem queueCommand_ruled (s : State) : s.queueCommand.ruled = s.ruled := ruled_eq (by simp) (by simp)

theorem announce_ruled (b s : State) : (announce b s).ruled = s.ruled := ruled_eq (by simp) (by simp)

theorem arbitrate_ruled (s : State) : s.arbitrate.ruled = s.ruled := ruled_eq (by simp) (by simp)

theorem release_ruled (s : State) : s.release.ruled = s.ruled := ruled_eq (by simp) (by simp)

theorem startReading_ruled (s : State) (tag : BitVec 4) (c : Circ) : (s.startReading tag c).ruled = s.ruled :=
  ruled_eq (by simp) (by simp)

theorem requestScan_ruled (s : State) : s.requestScan.ruled = s.ruled := arbitrate_ruled _

theorem afterPair_ruled (s : State) (c : Circ) : (s.afterPair c).ruled = s.ruled := by rw [afterPair_frame]; rfl

theorem setRank_ruled (s : State) (u : RankUnit) : (s.setRank u).ruled = s.ruled := ruled_eq (by simp) (by simp)

/-! ## Spot readings and queries -/

theorem takeSpotPair_ruled (s : State) (c : Circ) (vm im : Nat) : (s.takeSpotPair c vm im).ruled = s.ruled := by
  unfold State.takeSpotPair
  split
  · rfl
  · exact ite_ruled (by rw [addSpotPair_frame]; rfl)

theorem takeReading_ruled (s : State) (n : Serial) (tag : BitVec 4) (c : Circ) (d : ReadingData) :
    (s.takeReading n tag c d).ruled = s.ruled := by
  rcases takeReading_cases s n tag c d with ⟨_, _, _, e⟩ | e <;> rw [e]
  · exact raise_ruled _ _
  · rfl

/-! ## The fault list -/

theorem settleList_ruled (s : State) : s.settleList.ruled = s.ruled := ruled_eq (by simp) (by simp)

theorem confirm_ruled (s : State) (k : Key) (d : Details) (r : Option Rank) : (s.confirm k d r).ruled = s.ruled :=
  ruled_eq (by simp) (by simp)

theorem clear_ruled (s : State) (k : Key) : (s.clear k).ruled = s.ruled := ruled_eq (by simp) (by simp)

theorem headConfirmed_ruled (s : State) (c : Circ) (k : FaultKind) : (s.headConfirmed c k).ruled = s.ruled := by
  unfold State.headConfirmed
  dsimp only
  split
  · split
    · rfl
    · exact confirm_ruled _ _ _ _
  · exact confirm_ruled _ _ _ _

theorem headCleared_ruled (s : State) (c : Circ) (k : FaultKind) : (s.headCleared c k).ruled = s.ruled := by
  unfold State.headCleared
  dsimp only
  split
  · split
    · exact clear_ruled _ _
    · rfl
  · exact clear_ruled _ _

theorem headOutcome_ruled (c : Circ) (s : State) (o : FilterOutcome) : (State.headOutcome c s o).ruled = s.ruled := by
  refine (settleList_ruled _).trans ?_
  cases o with
  | confirmed k => exact headConfirmed_ruled _ _ _
  | cleared k => exact headCleared_ruled _ _ _
  | detailsChanged k => rfl
  | refreshed k => rfl

theorem balanceOutcome_ruled (f : LampFn) (sign : Option Sign) (s : State) (o : FilterOutcome) :
    (State.balanceOutcome f sign s o).ruled = s.ruled := by
  refine (settleList_ruled _).trans ?_
  cases o with
  | confirmed k => exact confirm_ruled _ _ _ _
  | cleared k => exact clear_ruled _ _
  | detailsChanged k => rfl
  | refreshed k => rfl

theorem headClashInput_ruled (s : State) (begins : Bool) : (s.headClashInput begins).ruled = s.ruled := by
  refine (settleList_ruled _).trans ?_
  split
  · exact confirm_ruled _ _ _ _
  · exact clear_ruled _ _

theorem rankClashInput_ruled (s : State) (n : Serial) (begins : Bool) (claim : Option Rank) :
    (s.rankClashInput n begins claim).ruled = s.ruled := by
  refine (settleList_ruled _).trans ?_
  split
  · exact confirm_ruled _ _ _ _
  · exact clear_ruled _ _

theorem ackAt_ruled (s : State) (i : Nat) : (s.ackAt i).ruled = s.ruled := by rw [ackAt_frame]; rfl

/-! ## A STATUS on the head, and stations lost -/

theorem clearCircuit_ruled (n : Serial) (prev : Option Report) (now : Report) (s : State) (c : Circ) :
    (clearCircuit n prev now s c).ruled = s.ruled := by
  unfold clearCircuit
  split
  · rfl
  · split
    · rfl
    · exact clear_ruled _ _

theorem clearLoss_ruled (n : Serial) (prev : Option Report) (now : Report) (s : State) (c : Circ) :
    (clearLoss n prev now s c).ruled = s.ruled := by
  unfold clearLoss
  dsimp only
  split
  · exact clear_ruled _ _
  · exact clear_ruled _ _
  all_goals rfl

theorem confirmCircuit_ruled (n : Serial) (prev : Option Report) (now : Report) (s : State) (c : Circ) :
    (confirmCircuit n prev now s c).ruled = s.ruled := by
  unfold confirmCircuit
  split
  · rfl
  · split
    · rfl
    · exact confirm_ruled _ _ _ _

theorem confirmLoss_ruled (n : Serial) (prev : Option Report) (now : Report) (s : State) (c : Circ) :
    (confirmLoss n prev now s c).ruled = s.ruled := by
  unfold confirmLoss
  dsimp only
  repeat' split
  · rfl
  · rfl
  · rfl
  · exact confirm_ruled _ _ _ _
  · exact confirm_ruled _ _ _ _

theorem comparePasses_ruled (s : State) (n : Serial) (prev : Option Report) (now : Report) :
    (s.comparePasses n prev now).ruled = s.ruled :=
  (((foldl_ruled (confirmLoss_ruled n prev now) _ _).trans (foldl_ruled (confirmCircuit_ruled n prev now) _ _)).trans
    (foldl_ruled (clearLoss_ruled n prev now) _ _)).trans (foldl_ruled (clearCircuit_ruled n prev now) _ _)

theorem joinStation_ruled (s : State) (n : Serial) (now : Report) : (s.joinStation n now).ruled = s.ruled := by
  unfold State.joinStation
  dsimp only
  refine ((foldl_ruled clear_ruled _ _).trans (comparePasses_ruled _ _ _ _)).trans ?_
  split
  · exact (clear_ruled _ _).trans (raise_ruled s _)
  · exact raise_ruled s _

theorem statusInput_ruled (s : State) (n : Serial) (prev : Option Report) (rep : Report) (out : Placement) :
    (s.statusInput n prev rep out).ruled = s.ruled := by
  unfold State.statusInput
  split
  · exact settleList_ruled s
  · refine (settleList_ruled _).trans ?_
    cases out with
    | new => exact joinStation_ruled _ _ _
    | refreshed => exact comparePasses_ruled _ _ _ _
    | moved src dst => exact comparePasses_ruled _ _ _ _
    | notTaken => rfl

theorem clashChange_ruled (s : State) (before : Roster) (n : Serial) (claim : Option Rank) :
    (s.clashChange before n claim).ruled = s.ruled := by
  unfold State.clashChange
  split
  · exact rankClashInput_ruled _ _ _ _
  · exact rankClashInput_ruled _ _ _ _
  all_goals rfl

theorem listStatus_ruled (s : State) (before : Roster) (h : RxHeader) (prev : Option Report) (rep : Report)
    (out : Placement) : (s.listStatus before h prev rep out).ruled = s.ruled := by
  unfold State.listStatus
  split
  · exact statusInput_ruled _ _ _ _ _
  · dsimp only
    split
    · exact (statusInput_ruled _ _ _ _ _).trans (clashChange_ruled _ _ _ _)
    · exact (clashChange_ruled _ _ _ _).trans (statusInput_ruled _ _ _ _ _)

theorem untrack_ruled (s : State) (n : Serial) (status : LearnDone) : (s.untrack n status).ruled = s.ruled :=
  raise_ruled _ _

theorem trackLearning_ruled (s : State) (n : Serial) (rep : Report) : (s.trackLearning n rep).ruled = s.ruled := by
  unfold State.trackLearning
  repeat' split
  · rfl
  · rfl
  · exact untrack_ruled _ _ _
  all_goals rfl

theorem noteUnlisted_ruled (s : State) (out : Placement) : (s.noteUnlisted out).ruled = s.ruled := by cases out <;> rfl

theorem raiseRankChanged_ruled (s : State) (n : Serial) (out : Placement) : (s.raiseRankChanged n out).ruled = s.ruled := by
  unfold State.raiseRankChanged
  split
  · exact raise_ruled _ _
  all_goals rfl

theorem learnStatus_ruled (s : State) (n : Serial) (rep : Report) (out : Placement) :
    (s.learnStatus n rep out).ruled = s.ruled := by
  cases out with
  | notTaken => rfl
  | new => exact trackLearning_ruled _ _ _
  | refreshed => exact trackLearning_ruled _ _ _
  | moved src dst => exact trackLearning_ruled _ _ _

theorem takeStatus_ruled (s : State) (h : RxHeader) (rep : Report) : (s.takeStatus h rep).ruled = s.ruled := by
  unfold State.takeStatus
  dsimp only
  split
  · exact (((learnStatus_ruled _ _ _ _).trans (raiseRankChanged_ruled _ _ _)).trans (noteUnlisted_ruled _ _)).trans
      (listStatus_ruled _ _ _ _ _ _)
  · rfl

theorem orphan_ruled (s : State) (k : Key) : (s.orphan k).ruled = s.ruled := raise_ruled _ _

theorem loseStation_ruled (s : State) (n : Serial) (r : Rank) : (s.loseStation n r).ruled = s.ruled := by
  unfold State.loseStation
  exact (((settleList_ruled _).trans (foldl_ruled orphan_ruled _ _)).trans (confirm_ruled _ _ _ _)).trans
    (raise_ruled s _)

theorem trackExpiry_ruled (s : State) (n : Serial) : (s.trackExpiry n).ruled = s.ruled := ite_ruled (untrack_ruled _ _ _)

theorem expireSlot_ruled (s : State) (r : Rank) (e : RosterEntry) : (s.expireSlot r e).ruled = s.ruled := by
  unfold State.expireSlot
  dsimp only
  split
  · exact (trackExpiry_ruled _ _).trans (loseStation_ruled _ _ _)
  · rfl

theorem expireUnplaced_ruled (s : State) (i : Nat) (e : RosterEntry) : (s.expireUnplaced i e).ruled = s.ruled := by
  unfold State.expireUnplaced
  dsimp only
  split
  · exact (trackExpiry_ruled _ _).trans (ite_ruled (rankClashInput_ruled _ _ _ _))
  · rfl

/-! ## The transmitter and the port -/

theorem tellFree_ruled (s : State) (k : TKind) : (s.tellFree k).ruled = s.ruled := by
  cases k with
  | query =>
    show s.offerQuery.ruled = _
    unfold State.offerQuery
    split
    · rfl
    · exact putSlot_ruled _ _ _
  | reading =>
    show s.offerReading.ruled = _
    unfold State.offerReading
    split
    · rfl
    · exact putSlot_ruled _ _ _
  | command => rfl
  | learn => rfl
  | status => rfl

theorem complete_ruled (s : State) (a : Attempt) : (s.complete a).ruled = s.ruled := by
  unfold State.complete
  dsimp only
  split
  · rfl
  · exact tellFree_ruled _ _

theorem headOnly_ruled {act : State → State} (h : ∀ s, (act s).ruled = s.ruled) (s : State) :
    (State.headOnly act s).ruled = s.ruled := by
  rcases headOnly_cases act s with ⟨_, e⟩ | ⟨_, e⟩ <;> rw [e]
  · exact h s
  · rfl

theorem popEvent_ruled (s : State) : s.popEvent.ruled = s.ruled := by
  rcases popEvent_cases s with ⟨_, e⟩ | ⟨_, _, _, e⟩ <;> rw [e] <;> rfl

theorem readEntry_ruled (index : Byte) (s : State) : (s.readEntry index).ruled = s.ruled := by
  unfold State.readEntry
  split <;> rfl

theorem ack_ruled (index : Byte) (n : Serial) (s : State) : (s.ack index n).ruled = s.ruled := by
  rcases ack_cases s index n with ⟨_, e⟩ | ⟨_, _, _, e⟩ | ⟨_, _, _, _, e⟩ <;> rw [e]
  · rfl
  · rfl
  · exact ackAt_ruled _ _

theorem reply_ruled (s : State) (outcome : Byte) (data : List Byte) : (s.reply outcome data).ruled = s.ruled := rfl

theorem clearFlags_ruled (mask : Byte) (s : State) : (s.clearFlags mask).ruled = s.ruled := rfl

theorem ackAll_ruled (s : State) : s.ackAll.ruled = s.ruled := foldl_ruled ackAt_ruled _ s

theorem requestLearn_ruled (stations circuits : Byte) (s : State) : (s.requestLearn stations circuits).ruled = s.ruled := by
  rcases requestLearn_cases s stations circuits with ⟨_, e⟩ | ⟨_, _, _, e⟩ | ⟨_, _, _, e⟩ <;> rw [e]
  · rfl
  · rfl
  · exact putSlot_ruled _ _ _

theorem requestSpot_ruled (r : Rank) (c : Circ) (s : State) : (s.requestSpot r c).ruled = s.ruled := by
  rcases requestSpot_cases s r c with ⟨_, e⟩ | ⟨_, _, _, e⟩ | ⟨_, _, _, e⟩ | ⟨_, _, _, _, _, e⟩ <;> rw [e]
  · rfl
  · exact startReading_ruled _ _ _
  · rfl
  · show (State.queueQuery _ _).ruled = _
    unfold State.queueQuery
    split
    · rfl
    · exact putSlot_ruled _ _ _

end Sys2Proof.Machine
end

section
/-! SUPPORT. Every row passes on the laws of the circuits and of the balance filters, and so does a step. -/

namespace Sys2Proof.Machine

/-! ## The relation -/

/-- The laws of every circuit and of every balance filter pass from one state to another. -/
structure CircuitsPass (s t : State) : Prop where
  circuit : ∀ c : Circ, s.circuits[c].Passes t.circuits[c]
  balance : ∀ f : Circ, s.balance.filters[f].law = true → t.balance.filters[f].law = true

theorem CircuitsPass.same {s t : State} (h : t.ruled = s.ruled) : CircuitsPass s t := by
  obtain ⟨circuits, filters⟩ := Prod.mk.inj h
  exact ⟨fun c => by rw [circuits]; exact .refl _, fun f => by rw [filters]; exact id⟩

theorem CircuitsPass.refl (s : State) : CircuitsPass s s := .same rfl

theorem CircuitsPass.trans {s t u : State} (h : CircuitsPass s t) (g : CircuitsPass t u) : CircuitsPass s u where
  circuit c := (h.circuit c).trans (g.circuit c)
  balance f := g.balance f ∘ h.balance f

/-- What follows leaves circuits and filters as they are. -/
theorem CircuitsPass.andSame {s t u : State} (h : CircuitsPass s t) (g : u.ruled = t.ruled) : CircuitsPass s u :=
  h.trans (.same g)

/-- What comes before leaves circuits and filters as they are. -/
theorem CircuitsPass.afterSame {s t u : State} (h : CircuitsPass t u) (g : t.ruled = s.ruled) : CircuitsPass s u :=
  (CircuitsPass.same g).trans h

/-- A row that acts only where its condition holds. -/
theorem CircuitsPass.ite {s t : State} {p : Prop} [Decidable p] (h : p → CircuitsPass s t) :
    CircuitsPass s (if p then t else s) := by
  split
  next c => exact h c
  next => exact .refl s

theorem setC_passes {s : State} {c : Circ} {k : Circuit} (h : s.circuits[c].Passes k) : CircuitsPass s (s.setC c k) where
  circuit d := by
    rw [setC_circuit]
    split
    next e => rw [e]; exact h
    next => exact .refl _
  balance _ := id

/-! ## Edges, the ring and the reported period -/

theorem takeSample_passes (s : State) (c : Circ) (vm im : Nat) (stamp : Ms) :
    CircuitsPass s (s.takeSample c vm im stamp) := by
  unfold State.takeSample
  dsimp only
  split
  · exact .refl s
  · split
    · exact (setC_passes (k := { s.circuits[c] with pendingSample := some ⟨vm, im, stamp⟩ }) (.same rfl)).andSame rfl
    · exact .ite fun _ => setC_passes (.same rfl)

theorem addRing_passes (s : State) (e : RingEntry) : CircuitsPass s (s.addRing e) where
  circuit c := by
    rcases addRing_circuit s e c with h | h <;> rw [h]
    · exact .refl _
    · exact flashingChange_passes _ _ _
  balance _ := id

theorem epochChange_passes (s : State) : CircuitsPass s s.epochChange := by
  unfold State.epochChange
  refine .andSame ?_ (queueCommand_ruled _)
  exact .afterSame (addRing_passes _ _) rfl

theorem reevaluatePeriod_passes {s t : State} (h : CircuitsPass s t) (b : State) :
    CircuitsPass s (reevaluatePeriod b t) := by
  rcases reevaluatePeriod_cases b t with e | ⟨x, _, e⟩ | ⟨x, p, _, e⟩ <;> rw [e]
  · exact h
  · exact h.andSame rfl
  · refine h.trans ?_
    exact .afterSame (epochChange_passes _) rfl

theorem confirmEdge_passes (s : State) (c : Circ) (vm : Nat) : CircuitsPass s (s.confirmEdge c vm) := by
  unfold State.confirmEdge
  dsimp only
  split
  · exact .refl s
  · split
    · exact reevaluatePeriod_passes (setC_passes (takeEdge_passes _ _ _ _ _)) s
    · exact setC_passes (.same rfl)

/-! ## The write engine and the reference unit -/

theorem setSave_passes (s : State) (c : Circ) (v : SaveState) : CircuitsPass s (s.setSave c v) :=
  setC_passes (save_passes _ v)

theorem startWrite_passes (s : State) : CircuitsPass s s.startWrite := by
  rcases startWrite_cases s with ⟨_, e⟩ | ⟨_, _, _, e⟩ | ⟨_, _, _, _, _, e⟩ | ⟨_, e⟩ <;> rw [e]
  · exact .refl s
  · exact .same rfl
  · exact .afterSame (setSave_passes _ _ _) rfl
  · exact .refl s

theorem reportWrite_passes (s : State) (item : StoreItem) (ok : Bool) : CircuitsPass s (s.reportWrite item ok) := by
  cases item with
  | config => exact .same rfl
  | reference c =>
    unfold State.reportWrite
    dsimp only
    split
    · exact .refl s
    · exact setSave_passes _ _ _

theorem endWrite_passes (s : State) (w : StoreWrite) (readback : List Byte) :
    CircuitsPass s (s.endWrite w readback) := by
  unfold State.endWrite
  refine .trans ?_ (startWrite_passes _)
  exact .afterSame (reportWrite_passes _ _ _) rfl

/-- R103, R104: eight samples of a LEARNING circuit. -/
theorem finishLearning_passes {s : State} {c : Circ} (learning : s.circuits[c].ref.learn = .learning) (sum : Nat) :
    CircuitsPass s (s.finishLearning c sum) := by
  unfold State.finishLearning
  dsimp only
  split
  next adopts =>
    refine .trans ?_ (startWrite_passes _)
    exact (setC_passes (adopt_passes learning adopts)).andSame rfl
  next => exact setC_passes (fail_passes learning _)

theorem handSample_passes (s : State) (c : Circ) (sample : Nat) : CircuitsPass s (s.handSample c sample) := by
  rcases handSample_cases s c sample with ⟨_, e⟩ | ⟨_, _, few, e⟩ | ⟨learning, _, _, e⟩ <;> rw [e]
  · exact .refl s
  · exact setC_passes (count_passes _ few _)
  · exact finishLearning_passes learning _

theorem actOnLearn_passes (s : State) (e circuits : Byte) : CircuitsPass s (s.actOnLearn e circuits) where
  circuit c := by
    have entered : (s.actOnLearn e circuits).circuits[c] = _ := eight_get _ c
    rw [entered]
    dsimp only
    split
    next chosen => exact enter_passes ((Bool.and_eq_true _ _ ▸ chosen).2) _ _
    next => exact .refl _
  balance _ := id

/-! ## Judgement -/

theorem applyFilter_passes (s : State) (c : Circ) (v : Verdict) : CircuitsPass s (s.applyFilter c v) := by
  have taken := setC_passes (filter_passes s.circuits[c] v.evidence)
  unfold State.applyFilter
  dsimp only
  split
  · exact taken.andSame (foldl_ruled (headOutcome_ruled c) _ _)
  · exact taken

theorem applyVerdict_passes (s : State) (c : Circ) (v : Option Verdict) : CircuitsPass s (s.applyVerdict c v) := by
  rcases applyVerdict_cases s c v with e | ⟨_, _, _, _, e⟩ | ⟨_, _, _, _, _, e⟩ <;> rw [e]
  · exact .refl s
  · exact applyFilter_passes _ _ _
  · exact (applyFilter_passes _ _ _).trans (handSample_passes _ _ _)

/-- R89: a balance record is taken by its function's filter. -/
theorem keepBalance_passes (s : State) (f : LampFn) (b : BalanceRecord) : CircuitsPass s (s.keepBalance f b) := by
  unfold State.keepBalance
  dsimp only
  split
  · exact .same rfl
  next e _ =>
    refine .andSame ?_ (foldl_ruled (balanceOutcome_ruled f _) _ _)
    refine ⟨fun _ => .refl _, fun g h => ?_⟩
    show (put s.balance.filters f.idx (s.balance.filters[f.idx].take e).1)[g].law = true
    rw [put_get]
    split
    next own => exact take_law (own ▸ h) e
    next => exact h

theorem formBalance_passes (s : State) (c : Circ) (r : Rec) (clean : Bool) :
    CircuitsPass s (s.formBalance c r clean) := by
  rcases formBalance_cases s c r clean with e | ⟨_, _, _, e⟩ <;> rw [e]
  · exact .refl s
  · exact keepBalance_passes _ _ _

/-- R46: a record leaves the queue of its circuit. -/
theorem dequeue_passes (k : Circuit) (p : Rec → Bool) : k.Passes { k with queue := k.queue.eraseP p } :=
  { Circuit.Passes.refl k with queue := fun h => (List.eraseP_sublist.length_le).trans h }

theorem keepLast_passes (s : State) (c : Circ) (r : Rec) (v : Option Verdict) : CircuitsPass s (s.keepLast c r v) :=
  setC_passes (.same rfl)

theorem judge_passes (s : State) (c : Circ) (r : Rec) : CircuitsPass s (s.judge c r) := by
  unfold State.judge
  exact (((setC_passes (dequeue_passes _ _)).trans (applyVerdict_passes _ _ _)).trans
    (keepLast_passes _ _ _ _)).trans (formBalance_passes _ _ _ _)

/-! ## Telegrams and frames -/

theorem arrive_passes {α : Type} {consume : State → α → State} (h : ∀ s a, CircuitsPass s (consume s a)) (s : State)
    (k : TKind) (content : Option α) : CircuitsPass s (s.arrive k content consume) := by
  rcases arrive_cases s k content consume with ⟨_, e⟩ | ⟨_, _, e⟩ | ⟨_, _, _, e⟩ <;> rw [e]
  · exact .same rfl
  · exact .same rfl
  · exact .afterSame (h _ _) rfl

theorem acceptCommand_passes (s : State) (n : Serial) (c : CommandContent) : CircuitsPass s (s.acceptCommand n c) := by
  unfold State.acceptCommand
  exact .afterSame (addRing_passes _ _) rfl

theorem trackCommand_passes (s : State) (n : Serial) (c : CommandContent) : CircuitsPass s (s.trackCommand n c) := by
  rcases trackCommand_cases s n c with e | e | e <;> rw [e]
  · exact .same rfl
  · exact acceptCommand_passes _ _ _
  · exact .same rfl

theorem takeCommand_passes (h : RxHeader) (s : State) (c : CommandContent) : CircuitsPass s (s.takeCommand h c) := by
  have clash : (coastEdge s s.clashCommand).ruled = s.ruled := coastEdge_ruled _ _
  unfold State.takeCommand
  dsimp only
  split
  · split
    · exact .same ((headClashInput_ruled _ _).trans clash)
    · exact .same clash
  · split
    · split
      · exact trackCommand_passes _ _ _
      · exact .same rfl
    · exact .refl s

theorem storeConfig_passes (block : List Byte) (s : State) : CircuitsPass s (s.storeConfig block) := by
  rcases storeConfig_cases block s with ⟨_, e⟩ | ⟨_, _, e⟩ | ⟨_, _, e⟩ <;> rw [e]
  · exact .same rfl
  · exact .same rfl
  · exact .afterSame (startWrite_passes _) rfl

theorem atRelease_passes {act : State → State} (h : ∀ s, CircuitsPass s (act s)) (s : State) :
    CircuitsPass s (s.atRelease act) := by
  rcases atRelease_cases s act with ⟨_, e⟩ | ⟨_, e⟩ | ⟨_, e⟩ | ⟨_, e⟩ <;> rw [e]
  · exact .refl s
  · exact .same rfl
  · exact .afterSame (h _) rfl
  · exact .afterSame (h _) rfl

/-- A request that leaves circuits and filters alone. -/
theorem atRelease_same {act : State → State} (h : ∀ s, (act s).ruled = s.ruled) (s : State) :
    CircuitsPass s (s.atRelease act) := atRelease_passes (fun s => .same (h s)) s

/-! ## Every row -/

/-- Every row but the two resets passes the laws of circuits and filters on. -/
theorem exec_circuitsPass (c : Instr) (s : State) (reset : c ≠ .startUpReset) (restart : c ≠ .restart) :
    ∃ t, exec c s = .next t ∧ CircuitsPass s t := by
  cases c with
  | startUpReset => exact absurd rfl reset
  | restart => exact absurd rfl restart
  | scanStep => exact ⟨_, rfl, .ite fun _ => .same (requestScan_ruled s)⟩
  | pairEnd v i =>
    refine ⟨_, rfl, ?_⟩
    split
    · exact (takeSample_passes _ _ _ _ _).andSame (afterPair_ruled _ _)
    all_goals exact .refl s
  | supplyConversionEnd v =>
    refine ⟨_, rfl, ?_⟩
    split
    · exact .same (((announce_ruled _ _).trans (release_ruled _)).trans (coastEdge_ruled _ _))
    all_goals exact .refl s
  | voltageReConversionEnd v =>
    refine ⟨_, rfl, ?_⟩
    split
    · exact (confirmEdge_passes _ _ _).andSame ((announce_ruled _ _).trans (release_ruled _))
    all_goals exact .refl s
  | spotPairEnd v i =>
    refine ⟨_, rfl, ?_⟩
    split
    · exact .same ((release_ruled _).trans (takeSpotPair_ruled _ _ _ _))
    all_goals exact .refl s
  | missedFlash c =>
    refine ⟨_, rfl, .ite fun due => reevaluatePeriod_passes (setC_passes (missFlash_passes ?_ _ _)) s⟩
    exact (Bool.and_eq_true _ _ ▸ due).1
  | silenceDeadline c =>
    refine ⟨_, rfl, .ite fun due => ?_⟩
    simp only [Circuit.silenceDue, Bool.and_eq_true, Bool.not_eq_true', beq_iff_eq] at due
    obtain ⟨⟨unlocked, active⟩, _⟩ := due
    exact setC_passes (silence_passes unlocked active _)
  | lingerEnd c => exact ⟨_, rfl, .ite fun _ => reevaluatePeriod_passes (setC_passes (fallDormant_passes _ _)) s⟩
  | windowClose c =>
    refine ⟨_, rfl, ?_⟩
    split
    · exact setC_passes (closeWindow_passes _ _)
    · exact .refl s
  | heldOnClose c =>
    refine ⟨_, rfl, ?_⟩
    split
    · exact setC_passes (closeHeldOn_passes _ _)
    · exact .refl s
  | takenForJudgement c =>
    refine ⟨_, rfl, ?_⟩
    split
    · exact (judge_passes _ _ _).andSame (announce_ruled _ _)
    · exact .refl s
  | learnDeadline c =>
    refine ⟨_, rfl, .ite fun due => (setC_passes (fail_passes ?_ _)).andSame (announce_ruled _ _)⟩
    exact beq_iff_eq.1 (Bool.and_eq_true _ _ ▸ due).1
  | storeWriteEnd readback =>
    refine ⟨_, rfl, ?_⟩
    split
    · exact endWrite_passes _ _ _
    · exact .refl s
  | intentDebounce line =>
    refine ⟨_, rfl, .ite fun _ => .andSame ?_ ((announce_ruled _ _).trans (coastEdge_ruled _ _))⟩
    exact .afterSame (epochChange_passes _) rfl
  | reSendTimer => exact ⟨_, rfl, .ite fun _ => .same (queueCommand_ruled s)⟩
  | stalenessTimer => exact ⟨_, rfl, .ite fun _ => .same (announce_ruled _ _)⟩
  | candidateStart quietNs widthNs driving char => exact ⟨_, rfl, .same rfl⟩
  | badTelegram chars =>
    refine ⟨_, rfl, ?_⟩
    split <;> exact .same rfl
  | commandTelegram h p => exact ⟨_, rfl, (arrive_passes (takeCommand_passes h) _ _ _).andSame (announce_ruled _ _)⟩
  | learnTelegram h p =>
    exact ⟨_, rfl, (arrive_passes (fun _ _ => .ite fun _ => actOnLearn_passes _ _ _) _ _ _).andSame (announce_ruled _ _)⟩
  | queryTelegram h p =>
    exact ⟨_, rfl, arrive_passes (fun _ _ => .ite fun _ => .same (startReading_ruled _ _ _)) _ _ _⟩
  | readingTelegram h p =>
    exact ⟨_, rfl, arrive_passes (fun _ _ => .ite fun _ => .same (takeReading_ruled _ _ _ _ _)) _ _ _⟩
  | statusTelegram h p => exact ⟨_, rfl, arrive_passes (fun s rep => .same (takeStatus_ruled s h rep)) _ _ _⟩
  | headClashDeadline =>
    have coast := coastEdge_ruled s { s with headClashAt := none, tell := { s.tell with clashEnd := some s.now } }
    refine ⟨_, rfl, .ite fun _ => .same ((announce_ruled _ _).trans ?_)⟩
    split
    · exact (headClashInput_ruled _ _).trans coast
    · exact coast
  | rosterExpiry place =>
    refine ⟨_, rfl, ?_⟩
    split
    · exact .refl s
    · split
      · exact .same (expireSlot_ruled _ _ _)
      · exact .same (expireUnplaced_ruled _ _ _)
  | warnBlinkHalf => exact ⟨_, rfl, .ite fun _ => .same rfl⟩
  | trainSeconds => exact ⟨_, rfl, .ite fun _ => .same rfl⟩
  | unlistedDeadline => exact ⟨_, rfl, .ite fun _ => .same rfl⟩
  | aloneTimer => exact ⟨_, rfl, .ite fun _ => .same rfl⟩
  | sendAttempt quietNs =>
    refine ⟨_, rfl, ?_⟩
    split <;> exact .same rfl
  | yieldLine line => exact ⟨_, rfl, .ite fun _ => .same rfl⟩
  | driveFault line => exact ⟨_, rfl, .ite fun _ => .same rfl⟩
  | completion =>
    refine ⟨_, rfl, ?_⟩
    split
    · exact .same (complete_ruled _ _)
    all_goals exact .refl s
  | cutOff ns =>
    refine ⟨_, rfl, .ite fun _ => ?_⟩
    split <;> exact .same rfl
  | cutOffRecovery ms => exact ⟨_, rfl, .ite fun _ => .same rfl⟩
  | lineStuck ns =>
    refine ⟨_, rfl, ?_⟩
    split
    · exact .refl s
    · split <;> exact .same rfl
  | lineStuckHoldEnd ms => exact ⟨_, rfl, .same rfl⟩
  | statusTimer => exact ⟨_, rfl, .ite fun _ => .same (queueStatus_ruled _)⟩
  | holdoff => exact ⟨_, rfl, .ite fun _ => .same (queueStatus_ruled s)⟩
  | rearBurstStart => exact ⟨_, rfl, .ite fun _ => .same rfl⟩
  | rearPulse =>
    refine ⟨_, rfl, ?_⟩
    split <;> exact .same rfl
  | frontHighStretch us =>
    refine ⟨_, rfl, ?_⟩
    split <;> exact .same rfl
  | burstEnd =>
    refine ⟨_, rfl, ?_⟩
    split
    · exact .refl s
    · exact .same ((announce_ruled _ _).trans (setRank_ruled _ _))
  | rankSilenceDeadline => exact ⟨_, rfl, .ite fun _ => .same ((announce_ruled _ _).trans (setRank_ruled _ _))⟩
  | learnTrackerDeadline serial => exact ⟨_, rfl, .ite fun _ => .same (untrack_ruled _ _ _)⟩
  | queryDeadline =>
    refine ⟨_, rfl, ?_⟩
    split
    · exact .refl s
    · exact .same (raise_ruled _ _)
  | frameStart =>
    refine ⟨_, rfl, ?_⟩
    split <;> exact .same rfl
  | badFrame => exact ⟨_, rfl, atRelease_same (fun _ => reply_ruled _ _ _) s⟩
  | unknown code => exact ⟨_, rfl, atRelease_same (fun _ => reply_ruled _ _ _) s⟩
  | status => exact ⟨_, rfl, atRelease_same (fun _ => reply_ruled _ _ _) s⟩
  | event => exact ⟨_, rfl, atRelease_same (headOnly_ruled popEvent_ruled) s⟩
  | entry index => exact ⟨_, rfl, atRelease_same (headOnly_ruled (readEntry_ruled index)) s⟩
  | ack index serial => exact ⟨_, rfl, atRelease_same (headOnly_ruled (ack_ruled index serial)) s⟩
  | ackAll => exact ⟨_, rfl, atRelease_same (headOnly_ruled ackAll_ruled) s⟩
  | clearFlags mask => exact ⟨_, rfl, atRelease_same (headOnly_ruled (clearFlags_ruled mask)) s⟩
  | learn stations circuits => exact ⟨_, rfl, atRelease_same (headOnly_ruled (requestLearn_ruled stations circuits)) s⟩
  | spot rank circuit =>
    refine ⟨_, rfl, atRelease_same (headOnly_ruled fun s => ?_) s⟩
    split
    · split
      · exact requestSpot_ruled _ _ _
      · rfl
    · rfl
  | spotResult => exact ⟨_, rfl, atRelease_same (headOnly_ruled fun _ => reply_ruled _ _ _) s⟩
  | roster position =>
    refine ⟨_, rfl, atRelease_same (fun s => ?_) s⟩
    split <;> rfl
  | localRead circuit =>
    refine ⟨_, rfl, atRelease_same (fun s => ?_) s⟩
    split <;> rfl
  | tallies => exact ⟨_, rfl, atRelease_same (fun _ => reply_ruled _ _ _) s⟩
  | storeConfig block => exact ⟨_, rfl, atRelease_passes (storeConfig_passes block) s⟩

/-! ## The resets and the step -/

/-- R97, R108: the reference that a start-up reset reads from a record meets the law of its circuit. -/
theorem fromRecord_refLaw {k : Circuit} {bytes : List Byte} (h : k.ref = (RefUnit.fromRecord k.cfg bytes).1) :
    k.refLaw = true := by
  have idle := (fromRecord_idle k.cfg bytes).1
  rw [refLaw_iff, h, idle]
  refine ⟨fun x use => (fromRecord_iref use).2, ?_, Nat.zero_lt_succ _, ?_⟩
  · cases lamp : k.cfg.kind.isLamp with
    | false => rw [fromRecord_none (.inl lamp)]; exact nofun
    | true =>
      cases c : itemCondition bytes with
      | erased => rw [fromRecord_none (.inr c)]; exact nofun
      | bad => rw [fromRecord_bad lamp c]; exact nofun
      | good =>
        rw [fromRecord_good lamp c]
        split
        · exact fun _ => rfl
        · exact nofun
  · cases lamp : k.cfg.kind.isLamp with
    | true => exact .inl rfl
    | false => rw [fromRecord_none (.inl lamp)]; exact .inr rfl

theorem startUp_balance (s : State) : s.startUp.balance = Balance.start := by
  rw [startUp_eq]
  rfl

/-- R25, R83, R97: whatever the station was, a start-up reset meets every law. -/
theorem startUp_circuitsPass (s : State) : CircuitsPass s s.startUp where
  circuit c := by
    have start := startUp_circuit s c
    exact ⟨fun _ => by rw [start]; exact start_law _, fun _ => by rw [start]; exact Nat.zero_le _,
      fun _ => by rw [start]; exact dormant_law, fun _ => fromRecord_refLaw (startUp_circuit_ref s c)⟩
  balance f _ := by
    rw [startUp_balance]
    have start : Balance.start.filters[f] = .start 0 := Vector.getElem_replicate f.isLt
    rw [start]
    exact start_law 0

/-- Every row passes the laws of circuits and filters on. -/
theorem exec_passesCircuits {c : Instr} {s t : State} (e : exec c s = .next t) : CircuitsPass s t := by
  by_cases reset : c = .startUpReset
  · subst reset
    cases (rfl : exec .startUpReset s = .next s.startUp).symm.trans e
    exact startUp_circuitsPass s
  · by_cases restart : c = .restart
    · subst restart
      cases (rfl : exec .restart s = .next (s.atRelease State.startUp)).symm.trans e
      exact atRelease_passes startUp_circuitsPass s
    · obtain ⟨u, eu, pass⟩ := exec_circuitsPass c s reset restart
      cases eu.symm.trans e
      exact pass

theorem step_passesCircuits {s t : State} (h : step s = .next t) : CircuitsPass s t := by
  rcases step_cases s with ⟨c, rest, _, e⟩ | ⟨_, _, e⟩ | ⟨c, _, _, _, _, e⟩ | ⟨_, _, _, e⟩
  · exact .afterSame (t := { s with pending := rest }) (exec_passesCircuits (e.symm.trans h)) rfl
  · cases e.symm.trans h
    exact .same rfl
  · exact exec_passesCircuits (e.symm.trans h)
  · cases e.symm.trans h
    exact .same (by rw [(tick_frame s).1]; rfl)

/-- A law of every circuit, read circuit by circuit. -/
theorem all_allCirc (p : Circ → Bool) : (allCirc.all p) = true ↔ ∀ c, p c = true := by
  simp [List.all_eq_true, mem_allCirc]

/-- Settles O17: each law is one of every circuit or of every balance filter, and passes on circuit by circuit. -/
theorem stepKeepsCircuitLaws : Obligations.StepKeepsCircuitLaws := by
  intro s t h
  obtain ⟨circuit, balance⟩ := step_passesCircuits h
  simp only [State.filterLaw, State.queueLaw, State.trackerLaw, State.refLaw, all_allCirc, Bool.and_eq_true,
    decide_eq_true_eq]
  exact ⟨fun law c => ⟨(circuit c).filter (law c).1, balance c (law c).2⟩, fun law c => (circuit c).queue (law c),
    fun law c => (circuit c).tracker (law c), fun law c => (circuit c).ref (law c)⟩

end Sys2Proof.Machine
end

section
/-! SUPPORT. The timed rows of one circuit (R27, R32 to R34, R42, R43), and a record pushed with the bound of R45. -/

namespace Sys2Proof.Machine

/-- A moment is reached exactly when it is set and not later than now. -/
theorem reached_some {at_ : Option Ms} {t now : Ms} (h : at_ = some t) (past : t ≤ now) : reached at_ now = true := by
  rw [h]
  exact decide_eq_true past

/-! ## MISSED_FLASH -/

/-- R32, R33: what a missed flash leaves of a LOCKED tracker's circuit that stays LOCKED, before any record. -/
def Circuit.countMiss (k : Circuit) (at_ p : Ms) : Circuit :=
  { k with tracker := { k.tracker with miss := k.tracker.miss + 1, compareAt := some (at_ + p) } }

/-- R32: the row of a compare time that is reached. -/
theorem missedFlash_eq {s : State} {c : Circ} {at_ : Ms} (locked : s.circuits[c].tracker.locked = true)
    (timer : s.circuits[c].tracker.compareAt = some at_) (past : at_ ≤ s.now) :
    exec (.missedFlash c) s = .next (reevaluatePeriod s (s.setC c (s.circuits[c].missFlash at_ s.now))) := by
  have due : s.circuits[c].missDue s.now = true := by
    rw [Circuit.missDue, locked, reached_some timer past, Bool.and_self]
  simp only [exec, execMissedFlash]
  rw [if_pos due, timer, Option.getD_some]

/-- R32, R33: the third missed flash unlocks. -/
theorem missFlash_third {k : Circuit} (h : 2 ≤ k.tracker.miss) (at_ now : Ms) :
    k.missFlash at_ now = { k with tracker := { k.tracker.unlock now with prevOn := none } } :=
  if_pos (by omega)

/-- R33: a missed flash makes a record exactly when it is the second of a dark circuit whose tracker is ACTIVE. -/
theorem missFlash_counts {k : Circuit} {p : Nat} (mean : k.tracker.pbar = some p) (few : k.tracker.miss < 2)
    (at_ now : Ms) :
    k.missFlash at_ now =
      if k.tracker.miss = 1 ∧ k.tracker.activity = .active ∧ k.energized = false then
        (k.countMiss at_ p).push (Rec.missed (k.tracker.prevOn.getD 0) at_)
      else k.countMiss at_ p := by
  have period : k.tracker.pbar.getD 0 = p := by rw [mean, Option.getD_some]
  unfold Circuit.missFlash
  dsimp only
  rw [if_neg (by omega), period]
  simp only [Bool.and_eq_true, decide_eq_true_eq, Bool.not_eq_true', Nat.reduceEqDiff, and_assoc]
  rfl

/-- Settles O28: the counted misses by `missFlash_counts`, the record by the bound of its queue, the third by the unlock. -/
theorem missedFlashesCountAndUnlock : Obligations.MissedFlashesCountAndUnlock := by
  intro c at_ p s
  dsimp only
  intro locked mean timer past
  refine ⟨_, missedFlash_eq locked timer past, fun first => ?_, fun second other => ?_, fun second active dark room => ?_,
    fun a b second active dark full => ?_, fun third => ?_⟩
  · rw [missFlash_counts mean (by omega), if_neg (by omega)]
    rfl
  · rw [missFlash_counts mean (by omega), if_neg ?_]
    · rfl
    · rintro ⟨_, active, dark⟩
      exact other.elim (absurd active) fun lit => Bool.noConfusion (dark.symm.trans lit)
  · rw [missFlash_counts mean (by omega), if_pos ⟨second, active, dark⟩]
    exact if_pos room
  · rw [missFlash_counts mean (by omega), if_pos ⟨second, active, dark⟩, push_frame, push_queue, push_glitch]
    have queue : (s.circuits[c].countMiss at_ p).queue = [a, b] := full
    rw [queue]
    rfl
  · rw [missFlash_third third.ge]
    rfl

/-! ## SILENCE_DEADLINE, LINGER_END, WINDOW_CLOSE and HELD_ON_CLOSE -/

/-- R34: the row of a silence deadline that is reached. -/
theorem silenceDeadline_eq {s : State} {c : Circ} {at_ : Ms} (unlocked : s.circuits[c].tracker.locked = false)
    (active : s.circuits[c].tracker.activity = .active) (timer : s.circuits[c].tracker.silenceAt = some at_)
    (past : at_ ≤ s.now) : exec (.silenceDeadline c) s = .next (s.setC c (s.circuits[c].silence at_)) := by
  have due : s.circuits[c].silenceDue s.now = true := by
    rw [Circuit.silenceDue, unlocked, active, reached_some timer past]
    rfl
  simp only [exec, execSilenceDeadline]
  rw [if_pos due, timer, Option.getD_some]

/-- R27: the row of a linger end that is reached. -/
theorem lingerEnd_eq {s : State} {c : Circ} {at_ : Ms} (lingering : s.circuits[c].tracker.activity = .lingering)
    (timer : s.circuits[c].tracker.lingerAt = some at_) (past : at_ ≤ s.now) :
    exec (.lingerEnd c) s = .next (reevaluatePeriod s (s.setC c (s.circuits[c].fallDormant s.now))) := by
  have due : s.circuits[c].lingerDue s.now = true := by
    rw [Circuit.lingerDue, lingering, reached_some timer past]
    rfl
  simp only [exec, execLingerEnd]
  rw [if_pos due]

/-- R41: a record closed by a mode change, unless its start is its end. -/
theorem closeForMode_none {k : Circuit} (h : k.opened = none) (now : Ms) : k.closeForMode now = k := by
  simp [Circuit.closeForMode, h]

theorem closeForMode_empty {k : Circuit} {r : Rec} (h : k.opened = some r) :
    k.closeForMode r.start = { k with opened := none } := by
  simp [Circuit.closeForMode, h]

theorem closeForMode_closes {k : Circuit} {r : Rec} {now : Ms} (h : k.opened = some r) (longer : r.start ≠ now) :
    k.closeForMode now = { k.push { r with finish := now } with opened := none } := by
  simp [Circuit.closeForMode, h, longer]

/-- R41, R45: a mode change reaches the record being built, the queue and the glitch tally alone. -/
theorem closeForMode_frame (k : Circuit) (now : Ms) :
    k.closeForMode now = { k with
      opened := none, queue := (k.closeForMode now).queue, glitch := (k.closeForMode now).glitch } := by
  rcases closeForMode_cases k now with ⟨shut, e⟩ | ⟨_, _, _, e⟩ | ⟨_, _, _, e⟩ <;> rw [e]
  · rw [← shut]
  · rw [push_frame]

/-- R41: what a mode change closes does not depend on the tracker. -/
theorem closeForMode_tracker (k : Circuit) (t : Tracker) (now : Ms) :
    Circuit.closeForMode { k with tracker := t } now = { k.closeForMode now with tracker := t } := by
  obtain ⟨_, _, _, _, _, _, opened, _, _, _, _⟩ := k
  cases opened with
  | none => rfl
  | some r =>
    unfold Circuit.closeForMode Circuit.push
    dsimp only
    split_ifs <;> rfl

/-- R27, R41: a circuit that falls DORMANT goes to windows. -/
theorem fallDormant_eq (k : Circuit) (now : Ms) :
    k.fallDormant now = { k.closeForMode now with
      tracker := .dormant, opened := some (Rec.open .window now k.energized) } := by
  have lit : (k.closeForMode now).energized = k.energized := by rw [closeForMode_frame]
  unfold Circuit.fallDormant Circuit.toWindow
  rw [closeForMode_tracker]
  dsimp only
  rw [lit]

/-- R42: the row of a steady window that has reached its end. -/
theorem windowClose_eq {s : State} {c : Circ} {r : Rec} (opened : s.circuits[c].opened = some r) (kind : r.kind = .window)
    (past : r.windowEnd ≤ s.now) : exec (.windowClose c) s = .next (s.setC c (s.circuits[c].closeWindow r)) := by
  have ended : s.circuits[c].endedWindow s.now = some r := by simp only [Circuit.endedWindow, opened]; simp [kind, past]
  simp only [exec, execWindowClose]
  rw [ended]

/-- R43: the row of an ON-phase record that has been open for 2000 ms. -/
theorem heldOnClose_eq {s : State} {c : Circ} {r : Rec} (opened : s.circuits[c].opened = some r)
    (kind : r.kind = .onPhase) (past : r.start + 2000 ≤ s.now) :
    exec (.heldOnClose c) s = .next (s.setC c (s.circuits[c].closeHeldOn r)) := by
  have held : s.circuits[c].heldOnRecord s.now = some r := by simp only [Circuit.heldOnRecord, opened]; simp [kind, past]
  simp only [exec, execHeldOnClose]
  rw [held]

/-- Settles O29: each due row runs its circuit's operation, and a record it closes is pushed with the bound of R45. -/
theorem timedRecordsCloseAndOpen : Obligations.TimedRecordsCloseAndOpen := by
  intro c at_ s
  refine ⟨fun unlocked active timer past => ⟨fun lit => ?_, fun dark => ?_⟩,
    fun lingering timer past => ⟨fun shut => ?_, fun r opened empty => ?_, fun r opened longer => ?_⟩,
    fun r opened kind past => windowClose_eq opened kind past, fun r opened kind past => heldOnClose_eq opened kind past⟩
  · rw [silenceDeadline_eq unlocked active timer past, Circuit.silence, if_pos lit]
  · rw [silenceDeadline_eq unlocked active timer past, Circuit.silence, if_neg (by rw [dark]; exact Bool.false_ne_true)]
    rfl
  · rw [lingerEnd_eq lingering timer past, fallDormant_eq, closeForMode_none shut]
  · rw [lingerEnd_eq lingering timer past, fallDormant_eq, ← empty, closeForMode_empty opened]
  · rw [lingerEnd_eq lingering timer past, fallDormant_eq, closeForMode_closes opened longer]
    dsimp only [Circuit.push]
    split <;> rfl

end Sys2Proof.Machine
end

section
/-! SUPPORT. A COMMAND on a unit (R50 to R53, R155): which row of R51 applies, and what a circuit is told (R27, R41). -/

namespace Sys2Proof.Machine

/-! ## What a circuit is told -/

/-- R27: a recent on-edge counts as the previous one, and as a phase start while the circuit is lit. -/
theorem activate_eq (lastOn : Option Ms) (energized : Bool) (now : Ms) :
    let recent := lastOn.filter fun q => now - q ≤ 2000
    Tracker.activate lastOn energized now = { Tracker.dormant with
      activity := .active, prevOn := recent, phaseStart := if energized = true then recent else none
      silenceAt := some (max now (recent.getD now) + 2000) } := by
  cases lastOn with
  | none => rfl
  | some q =>
    have recent : (some q).filter (fun q => decide (now - q ≤ 2000)) = if now - q ≤ 2000 then some q else none := by
      simp only [Option.filter_some, decide_eq_true_eq]
    dsimp only
    rw [recent]
    rfl

/-- R41, R45: a mode change queues the record being built, pushing out the oldest of two. -/
theorem closeForMode_queues {k : Circuit} {w : Rec} {now : Ms} (opened : k.opened = some w) (longer : w.start ≠ now) :
    (k.queue.length < 2 → (k.closeForMode now).queue = k.queue ++ [{ w with finish := now }] ∧
      (k.closeForMode now).glitch = k.glitch) ∧
    (∀ x y, k.queue = [x, y] → (k.closeForMode now).queue = [y, { w with finish := now }] ∧
      (k.closeForMode now).glitch = min 65535 (k.glitch + 1)) := by
  rw [closeForMode_closes opened longer]
  refine ⟨fun room => ?_, fun x y full => ?_⟩
  · rw [push_queue, push_glitch, if_pos room, if_pos room]
    exact ⟨rfl, rfl⟩
  · rw [push_queue, push_glitch, full]
    exact ⟨rfl, rfl⟩

/-- R41: no record is made whose start is its end. -/
theorem closeForMode_queuesNone {k : Circuit} {now : Ms} (h : ∀ w, k.opened = some w → w.start = now) :
    (k.closeForMode now).queue = k.queue ∧ (k.closeForMode now).glitch = k.glitch := by
  rcases closeForMode_cases k now with ⟨_, e⟩ | ⟨_, _, _, e⟩ | ⟨w, opened, longer, _⟩
  · rw [e]
    exact ⟨rfl, rfl⟩
  · rw [e]
    exact ⟨rfl, rfl⟩
  · exact absurd (h w opened) longer

/-- R27, R41: a DORMANT circuit whose function starts FLASHING is activated, closes its window and, if it is lit, opens an
ON-phase record. -/
theorem flashingChange_activates {k : Circuit} (tracks : k.cfg.tracks = true) (dormant : k.tracker.activity = .dormant)
    (now : Ms) :
    let recent := k.lastOn.filter fun q => now - q ≤ 2000
    k.flashingChange true now = { k.closeForMode now with
      tracker := .activate k.lastOn k.energized now
      opened := if k.energized = true then some (Rec.open .onPhase (recent.getD now) true) else none } := by
  dsimp only
  have shut : (k.closeForMode now).opened = none := by rw [closeForMode_frame]
  have lit : (k.closeForMode now).energized = k.energized := by rw [closeForMode_frame]
  unfold Circuit.flashingChange
  rw [if_pos tracks, dormant]
  dsimp only
  unfold Circuit.toOnPhase
  rw [closeForMode_tracker, activate_eq]
  dsimp only
  rw [lit, ← shut]
  split <;> rfl

/-- R27: a LINGERING tracker resumes. -/
theorem flashingChange_resumes {k : Circuit} (tracks : k.cfg.tracks = true) (lingering : k.tracker.activity = .lingering)
    (now : Ms) : k.flashingChange true now = { k with tracker := k.tracker.resume now } := by
  unfold Circuit.flashingChange
  rw [if_pos tracks, lingering]

/-- R27: an ACTIVE tracker lingers. -/
theorem flashingChange_lingers {k : Circuit} (tracks : k.cfg.tracks = true) (active : k.tracker.activity = .active)
    (now : Ms) : k.flashingChange false now = { k with tracker := k.tracker.linger now } := by
  unfold Circuit.flashingChange
  rw [if_pos tracks, active]

/-- R52: an entry added tells each circuit whose function starts or stops FLASHING. -/
theorem addRing_tells (s : State) (e : RingEntry) (c : Circ) :
    let k := s.circuits[c]
    (s.addRing e).circuits[c] =
      if (currentState s.ring k.cfg.fn == some .flashing) = (e.states[k.cfg.fn.idx] == .flashing) then k
      else k.flashingChange (e.states[k.cfg.fn.idx] == .flashing) s.now := eight_get _ c

theorem addRing_same {s : State} {e : RingEntry} {c : Circ}
    (h : currentState s.ring s.circuits[c].cfg.fn = some .flashing ↔ e.states[s.circuits[c].cfg.fn.idx] = .flashing) :
    (s.addRing e).circuits[c] = s.circuits[c] := by
  rw [addRing_tells, if_pos]
  rw [Bool.eq_iff_iff, beq_iff_eq, beq_iff_eq]
  exact h

theorem addRing_starts {s : State} {e : RingEntry} {c : Circ}
    (was : currentState s.ring s.circuits[c].cfg.fn ≠ some .flashing)
    (is : e.states[s.circuits[c].cfg.fn.idx] = .flashing) :
    (s.addRing e).circuits[c] = s.circuits[c].flashingChange true s.now := by
  rw [addRing_tells, beq_eq_false_iff_ne.2 was, beq_iff_eq.2 is, if_neg Bool.false_ne_true]

theorem addRing_stops {s : State} {e : RingEntry} {c : Circ}
    (was : currentState s.ring s.circuits[c].cfg.fn = some .flashing)
    (is : e.states[s.circuits[c].cfg.fn.idx] ≠ .flashing) :
    (s.addRing e).circuits[c] = s.circuits[c].flashingChange false s.now := by
  rw [addRing_tells, beq_iff_eq.2 was, beq_eq_false_iff_ne.2 is, if_neg Bool.false_ne_true.symm]

/-! ## The rows of R51 -/

/-- R50: an eligible sender is head-flagged and is slot 0's, where slot 0 holds an entry. -/
theorem eligible_iff (s : State) (h : RxHeader) :
    s.eligible h = true ↔ h.head = true ∧ ∀ e, s.roster.slots[(0 : Rank)] = some e → e.serial = h.serial := by
  unfold State.eligible
  rw [Bool.and_eq_true]
  cases s.roster.slots[(0 : Rank)] <;> simp

/-- R51: a COMMAND repeats the newest ring entry. -/
theorem repeats_iff (m : CommandContent) (ring : List RingEntry) :
    m.repeats ring = true ↔
      ∃ e, ring.getLast? = some e ∧ e.states = m.states ∧ e.period = m.period ∧ e.crank = m.crank := by
  unfold CommandContent.repeats
  cases ring.getLast? <;> simp [and_assoc]

/-- R51: a new sender, or a fresh start. -/
theorem fresh_iff (s : State) (n : Serial) (m : CommandContent) :
    (s.cmd.lastSender != some n || m.fresh) = true ↔ s.cmd.lastSender ≠ some n ∨ m.fresh = true := by simp

theorem trackCommand_new {s : State} {n : Serial} {m : CommandContent}
    (fresh : s.cmd.lastSender ≠ some n ∨ m.fresh = true) :
    s.trackCommand n m = if s.cmd.lastEpoch = some m.epoch ∧ m.repeats s.ring = true then s.refreshCommand m
      else s.acceptCommand n m := by
  unfold State.trackCommand
  rw [if_pos ((fresh_iff s n m).2 fresh)]
  simp only [Bool.and_eq_true, decide_eq_true_eq]

theorem trackCommand_known {s : State} {n : Serial} {m : CommandContent} {last : Byte}
    (known : ¬ (s.cmd.lastSender ≠ some n ∨ m.fresh = true)) (epoch : s.cmd.lastEpoch = some last) :
    s.trackCommand n m = if m.epoch = last then s.refreshCommand m
      else if (m.epoch - last).toNat < 128 then s.acceptCommand n m
      else { s with cmd := { s.cmd with staleTally := satInc 65535 s.cmd.staleTally } } := by
  unfold State.trackCommand
  rw [if_neg (mt (fresh_iff s n m).1 known), epoch]

/-- R51: an epoch that differs from the last by some steps is another epoch. -/
theorem epoch_ne {e last : Byte} (h : 1 ≤ (e - last).toNat) : e ≠ last := by
  rintro rfl
  simp at h

/-! ## COMMAND_TELEGRAM -/

/-- R120, R125: the station after the arrival of a good telegram. -/
def State.heard (s : State) : State := { s with link := (s.link.good s.now).recount }

/-- R123: a delivered COMMAND is taken by the station, and what changed is noted. -/
theorem commandTelegram_eq {h : RxHeader} {p : BitVec 64} {m : CommandContent} {s : State}
    (delivers : s.link.receiver.delivers = true) (decoded : CommandContent.decode p = some m) :
    exec (.commandTelegram h p) s =
      .next (announce s (s.heard.takeCommand h m)) := by
  simp [exec, execCommandTelegram, State.arrive, delivers, decoded, State.heard]

/-- R50, R155: on a unit an eligible COMMAND is tracked, one of another head clashes, any other is discarded. -/
theorem takeCommand_unit {s : State} (unit : s.isHead = false) (h : RxHeader) (m : CommandContent) :
    s.takeCommand h m =
      if h.head = true then if s.eligible h = true then s.trackCommand h.serial m else s.clashCommand else s := by
  unfold State.takeCommand
  rw [if_neg (by rw [unit]; exact Bool.false_ne_true)]

/-- R50 to R52, R155: a COMMAND on a unit reaches the tracker, the ring, the circuits, the clash and the telling. -/
theorem takeCommand_frame {s : State} (unit : s.isHead = false) (h : RxHeader) (m : CommandContent) :
    let t := s.takeCommand h m
    t = { s with
      tell := t.tell, cmd := t.cmd, ring := t.ring, circuits := t.circuits, headClashAt := t.headClashAt } := by
  dsimp only
  rw [takeCommand_unit unit]
  split
  · split
    · rcases trackCommand_cases s h.serial m with e | e | e <;> rw [e] <;> rfl
    · rfl
  · rfl

/-- R52: the ring entry that an accepted COMMAND adds. -/
def CommandContent.entry (m : CommandContent) (now : Ms) : RingEntry := ⟨m.epoch, m.states, m.period, m.crank, now⟩

/-- R51, R52: an accepted COMMAND adds a ring entry, which tells the circuits. -/
theorem acceptCommand_circuits (s : State) (n : Serial) (m : CommandContent) :
    (s.acceptCommand n m).circuits = (s.addRing (m.entry s.now)).circuits := rfl

/-- Settles O40: the rows of R51 by the sender, the epoch and the ring, and an accepted COMMAND by what each circuit is
told. -/
theorem commandOnUnit : Obligations.CommandOnUnit := by
  intro h p m s unit delivers decoded
  refine ⟨_, commandTelegram_eq delivers decoded, ?_, ?_⟩
  · rw [announce_frame, takeCommand_frame (s := s.heard) unit]
    rfl
  rw [announce_frame]
  intro eligible fresh repeats accepted refreshed
  have told := takeCommand_unit (s := s.heard) unit h m
  have eligibleIff : s.heard.eligible h = true ↔ eligible := eligible_iff s.heard h
  have tracked (ok : eligible) : s.heard.takeCommand h m = s.heard.trackCommand h.serial m := by
    rw [told, if_pos ok.1, if_pos (eligibleIff.2 ok)]
  have refreshes (e : s.heard.takeCommand h m = s.heard.refreshCommand m) : refreshed := by
    refine ⟨?_, ?_, ?_⟩ <;> rw [e] <;> rfl
  have accepts (e : s.heard.takeCommand h m = s.heard.acceptCommand h.serial m) : accepted := by
    have circuits : (s.heard.takeCommand h m).circuits = (s.addRing (m.entry s.now)).circuits := by
      rw [e, acceptCommand_circuits]
      rfl
    refine ⟨by rw [e]; rfl, by rw [e]; rfl, fun c same => ?_, fun c tracks dormant was is => ?_,
      fun c tracks lingering was is => ?_, fun c tracks active was is => ?_⟩
    · rw [circuits, addRing_same (e := m.entry s.now) same]
    · dsimp only
      rw [circuits, addRing_starts (e := m.entry s.now) was is, flashingChange_activates tracks dormant, activate_eq]
      exact ⟨rfl, rfl, fun w opened longer => closeForMode_queues opened longer, closeForMode_queuesNone⟩
    · rw [circuits, addRing_starts (e := m.entry s.now) was is, flashingChange_resumes tracks lingering]
      rfl
    · rw [circuits, addRing_stops (e := m.entry s.now) was is, flashingChange_lingers tracks active]
      rfl
  refine ⟨fun ok => ?_, fun ok new same => ?_, fun ok new other => ?_, fun ok known epoch => ?_,
    fun last ok known epoch lo hi => ?_, fun last ok known epoch lo => ?_, fun head clash => ?_, fun plain => ?_⟩
  · rw [tracked ok]
    rcases trackCommand_cases s.heard h.serial m with e | e | e <;> rw [e] <;> rfl
  · refine fun rep => refreshes ?_
    rw [tracked ok, trackCommand_new (s := s.heard) new, if_pos ⟨same, (repeats_iff _ _).2 rep⟩]
  · refine accepts ?_
    rw [tracked ok, trackCommand_new (s := s.heard) new, if_neg]
    exact fun both => other ⟨both.1, (repeats_iff _ _).1 both.2⟩
  · refine refreshes ?_
    rw [tracked ok, trackCommand_known (s := s.heard) known epoch, if_pos rfl]
  · refine accepts ?_
    rw [tracked ok, trackCommand_known (s := s.heard) known epoch, if_neg (epoch_ne lo), if_pos (Nat.lt_succ_of_le hi)]
  · rw [tracked ok, trackCommand_known (s := s.heard) known epoch, if_neg (epoch_ne (by omega)), if_neg (by omega)]
    exact ⟨rfl, rfl, rfl⟩
  · rw [told, if_pos head, if_neg (mt eligibleIff.1 clash)]
    exact ⟨rfl, rfl, rfl, rfl⟩
  · rw [told, if_neg (by rw [plain]; exact Bool.false_ne_true)]
    exact ⟨rfl, rfl, rfl, rfl⟩

end Sys2Proof.Machine
end

section
/-! SUPPORT. The confirmation filters of a station that coasts (R60, R84): what keeps every filter, row by row. -/

namespace Sys2Proof.Machine

/-- R83, R89: every confirmation filter of the station, those of its circuits and those of its balance. -/
def State.filters (s : State) : Vector Filter 8 × Vector Filter 8 := (s.circuits.map Circuit.filter, s.balance.filters)

theorem filters_iff (s t : State) :
    t.filters = s.filters ↔
      (∀ c : Circ, t.circuits[c].filter = s.circuits[c].filter) ∧ t.balance.filters = s.balance.filters := by
  have circuits : t.circuits.map Circuit.filter = s.circuits.map Circuit.filter ↔
      ∀ c : Circ, t.circuits[c].filter = s.circuits[c].filter := by
    simp only [Vector.ext_iff, Vector.getElem_map]
    exact ⟨fun h c => h c.val c.isLt, fun h i lt => h ⟨i, lt⟩⟩
  rw [← circuits]
  exact Prod.mk_inj

/-- What leaves every circuit and every balance filter as it was leaves the filters. -/
theorem filters_of_ruled {s t : State} (h : t.ruled = s.ruled) : t.filters = s.filters := by
  obtain ⟨circuits, balance⟩ := Prod.mk.inj h
  unfold State.filters
  rw [circuits, balance]

/-- A row that acts only where its condition holds. -/
theorem ite_filters {s t : State} {p : Prop} [Decidable p] (h : t.filters = s.filters) :
    (if p then t else s).filters = s.filters := by
  split
  · exact h
  · rfl

/-! ## Circuits -/

theorem push_filter (k : Circuit) (r : Rec) : (k.push r).filter = k.filter := by rw [push_frame]

theorem closeForMode_filter (k : Circuit) (now : Ms) : (k.closeForMode now).filter = k.filter := by
  rw [closeForMode_frame]

theorem toOnPhase_filter (k : Circuit) (now : Ms) : (k.toOnPhase now).filter = k.filter := by
  unfold Circuit.toOnPhase
  dsimp only
  split <;> exact closeForMode_filter k now

theorem flashingChange_filter (k : Circuit) (flashing : Bool) (now : Ms) :
    (k.flashingChange flashing now).filter = k.filter := by
  unfold Circuit.flashingChange
  split
  · split
    · exact toOnPhase_filter _ now
    all_goals rfl
  · rfl

theorem takeEdge_filter (k : Circuit) (edge : Ms) (rising : Bool) (reported : Option Nat) (now : Ms) :
    (k.takeEdge edge rising reported now).filter = k.filter := by
  rw [takeEdge_frame]
  rfl

theorem missFlash_filter (k : Circuit) (at_ now : Ms) : (k.missFlash at_ now).filter = k.filter := by
  unfold Circuit.missFlash
  dsimp only
  split
  · rfl
  · split
    · exact push_filter _ _
    · rfl

theorem silence_filter (k : Circuit) (at_ : Ms) : (k.silence at_).filter = k.filter := by
  unfold Circuit.silence
  dsimp only
  split
  · rfl
  · exact push_filter _ _

/-! ## The station -/

/-- A circuit replaced by one with the same filter. -/
theorem setC_filters {s : State} {c : Circ} {k : Circuit} (h : k.filter = s.circuits[c].filter) :
    (s.setC c k).filters = s.filters := by
  rw [filters_iff]
  refine ⟨fun d => ?_, rfl⟩
  rw [setC_circuit]
  split
  next e => rw [e, h]
  next => rfl

theorem takeSample_filters (s : State) (c : Circ) (vm im : Nat) (stamp : Ms) :
    (s.takeSample c vm im stamp).filters = s.filters := by
  unfold State.takeSample
  dsimp only
  split
  · rfl
  · split
    · exact setC_filters (k := { s.circuits[c] with pendingSample := some ⟨vm, im, stamp⟩ }) rfl
    · exact ite_filters (setC_filters rfl)

theorem addRing_filters (s : State) (e : RingEntry) : (s.addRing e).filters = s.filters := by
  rw [filters_iff]
  refine ⟨fun c => ?_, rfl⟩
  rcases addRing_circuit s e c with h | h <;> rw [h]
  exact flashingChange_filter _ _ _

theorem epochChange_filters (s : State) : s.epochChange.filters = s.filters :=
  (filters_of_ruled (queueCommand_ruled _)).trans (addRing_filters _ _)

theorem reevaluatePeriod_filters (b s : State) : (reevaluatePeriod b s).filters = s.filters := by
  rcases reevaluatePeriod_cases b s with e | ⟨x, _, e⟩ | ⟨x, p, _, e⟩ <;> rw [e]
  · rfl
  · exact epochChange_filters _

theorem confirmEdge_filters (s : State) (c : Circ) (vm : Nat) : (s.confirmEdge c vm).filters = s.filters := by
  unfold State.confirmEdge
  dsimp only
  split
  · rfl
  · split
    · exact (reevaluatePeriod_filters _ _).trans (setC_filters (takeEdge_filter _ _ _ _ _))
    · exact setC_filters rfl

theorem startWrite_filters (s : State) : s.startWrite.filters = s.filters := by
  rcases startWrite_cases s with ⟨_, e⟩ | ⟨_, _, _, e⟩ | ⟨_, _, _, _, _, e⟩ | ⟨_, e⟩ <;> rw [e]
  · rfl
  · exact setC_filters rfl

theorem reportWrite_filters (s : State) (item : StoreItem) (ok : Bool) : (s.reportWrite item ok).filters = s.filters := by
  cases item with
  | config => rfl
  | reference c =>
    unfold State.reportWrite
    dsimp only
    split
    · rfl
    · exact setC_filters rfl

theorem endWrite_filters (s : State) (w : StoreWrite) (readback : List Byte) :
    (s.endWrite w readback).filters = s.filters :=
  (startWrite_filters _).trans (reportWrite_filters _ _ _)

theorem storeConfig_filters (block : List Byte) (s : State) : (s.storeConfig block).filters = s.filters := by
  rcases storeConfig_cases block s with ⟨_, e⟩ | ⟨_, _, e⟩ | ⟨_, _, e⟩ <;> rw [e]
  · rfl
  · rfl
  · exact startWrite_filters _

theorem actOnLearn_filters (s : State) (e circuits : Byte) : (s.actOnLearn e circuits).filters = s.filters := by
  rw [filters_iff]
  refine ⟨fun c => ?_, rfl⟩
  have entered : (s.actOnLearn e circuits).circuits[c] = _ := eight_get _ c
  rw [entered]
  dsimp only
  split <;> rfl

/-! ## Telegrams and frames -/

theorem arrive_filters {α : Type} {consume : State → α → State} (h : ∀ s a, (consume s a).filters = s.filters)
    (s : State) (k : TKind) (content : Option α) : (s.arrive k content consume).filters = s.filters := by
  rcases arrive_cases s k content consume with ⟨_, e⟩ | ⟨_, _, e⟩ | ⟨_, _, _, e⟩ <;> rw [e]
  · rfl
  · rfl
  · exact h _ _

theorem trackCommand_filters (s : State) (n : Serial) (c : CommandContent) : (s.trackCommand n c).filters = s.filters := by
  rcases trackCommand_cases s n c with e | e | e <;> rw [e]
  · rfl
  · exact addRing_filters _ _
  · rfl

theorem takeCommand_filters (h : RxHeader) (s : State) (c : CommandContent) : (s.takeCommand h c).filters = s.filters := by
  have clash : (coastEdge s s.clashCommand).ruled = s.ruled := coastEdge_ruled _ _
  unfold State.takeCommand
  dsimp only
  split
  · split
    · exact filters_of_ruled ((headClashInput_ruled _ _).trans clash)
    · exact filters_of_ruled clash
  · split
    · split
      · exact trackCommand_filters _ _ _
      · rfl
    · rfl

theorem atRelease_filters {act : State → State} (h : ∀ s, (act s).filters = s.filters) (s : State) :
    (s.atRelease act).filters = s.filters := by
  rcases atRelease_cases s act with ⟨_, e⟩ | ⟨_, e⟩ | ⟨_, e⟩ | ⟨_, e⟩ <;> rw [e]
  · rfl
  · exact h _
  · exact h _

/-- A request that leaves circuits and filters alone. -/
theorem atRelease_filters_of_ruled {act : State → State} (h : ∀ s, (act s).ruled = s.ruled) (s : State) :
    (s.atRelease act).filters = s.filters := atRelease_filters (fun s => filters_of_ruled (h s)) s

/-! ## Judgement on a coasting station -/

/-- R168: on a coasting station every balance record is thin. -/
theorem balanceRecord_coasting {s : State} (coasts : s.coasting = true) (f : LampFn) (clean : Bool) (ihead : Nat) :
    ∃ why, s.balanceRecord f clean ihead = ⟨.thin why, s.now⟩ := by
  unfold State.balanceRecord State.thinReason
  cases clean with
  | false => exact ⟨.feed, rfl⟩
  | true => exact ⟨.coast, by rw [coasts]; rfl⟩

/-- R84: a thin balance record becomes the function's result and reaches no filter. -/
theorem keepBalance_thin (s : State) (f : LampFn) (why : ThinReason) (now : Ms) :
    s.keepBalance f ⟨.thin why, now⟩ =
      { s with balance := { s.balance with results := put s.balance.results f.idx (some ⟨.thin why, now⟩) } } := rfl

theorem formBalance_coasting_filters {s : State} (coasts : s.coasting = true) (c : Circ) (r : Rec) (clean : Bool) :
    (s.formBalance c r clean).filters = s.filters := by
  rcases formBalance_cases s c r clean with e | ⟨_, _, _, e⟩ <;> rw [e]
  obtain ⟨why, thin⟩ := balanceRecord_coasting coasts s.circuits[c].cfg.fn clean (meanOf r.sumI r.n)
  rw [thin, keepBalance_thin]
  rfl

theorem keepLast_filters (s : State) (c : Circ) (r : Rec) (v : Option Verdict) :
    (s.keepLast c r v).filters = s.filters := setC_filters rfl

/-- R60, R84: a coasting station applies no verdict, and its balance records are thin. -/
theorem judge_coasting_filters {s : State} (coasts : s.coasting = true) (c : Circ) (r : Rec) :
    (s.judge c r).filters = s.filters := by
  unfold State.judge
  dsimp only
  rw [applyVerdict_coasting (by exact coasts)]
  exact (formBalance_coasting_filters (by exact coasts) _ _ _).trans ((keepLast_filters _ _ _ _).trans (setC_filters rfl))

/-! ## Every row -/

/-- R60, R84: no row of a coasting station but the two that reset it changes a filter. -/
theorem exec_coasting_filters (i : Instr) {s : State} (reset : i ≠ .startUpReset) (restart : i ≠ .restart)
    (coasts : s.coasting = true) : ∃ t, exec i s = .next t ∧ t.filters = s.filters := by
  cases i with
  | startUpReset => exact absurd rfl reset
  | restart => exact absurd rfl restart
  -- Judgement, the one row that applies verdicts.
  | takenForJudgement c =>
    refine ⟨_, rfl, ?_⟩
    split
    · exact (filters_of_ruled (announce_ruled _ _)).trans (judge_coasting_filters coasts _ _)
    · rfl
  -- Rows that write a circuit, but not its filter.
  | pairEnd v i =>
    refine ⟨_, rfl, ?_⟩
    split
    · exact (filters_of_ruled (afterPair_ruled _ _)).trans (takeSample_filters _ _ _ _ _)
    all_goals rfl
  | voltageReConversionEnd v =>
    refine ⟨_, rfl, ?_⟩
    split
    · exact (filters_of_ruled ((announce_ruled _ _).trans (release_ruled _))).trans (confirmEdge_filters _ _ _)
    all_goals rfl
  | missedFlash c =>
    exact ⟨_, rfl, ite_filters ((reevaluatePeriod_filters _ _).trans (setC_filters (missFlash_filter _ _ _)))⟩
  | silenceDeadline c => exact ⟨_, rfl, ite_filters (setC_filters (silence_filter _ _))⟩
  | lingerEnd c =>
    exact ⟨_, rfl, ite_filters ((reevaluatePeriod_filters _ _).trans (setC_filters (closeForMode_filter _ _)))⟩
  | windowClose c | heldOnClose c =>
    refine ⟨_, rfl, ?_⟩
    split
    · exact setC_filters (push_filter _ _)
    · rfl
  | learnDeadline c => exact ⟨_, rfl, ite_filters ((filters_of_ruled (announce_ruled _ _)).trans (setC_filters rfl))⟩
  | storeWriteEnd readback =>
    refine ⟨_, rfl, ?_⟩
    split
    · exact endWrite_filters _ _ _
    · rfl
  | intentDebounce line =>
    refine ⟨_, rfl, ite_filters ((filters_of_ruled ((announce_ruled _ _).trans (coastEdge_ruled _ _))).trans ?_)⟩
    exact epochChange_filters _
  | commandTelegram h p =>
    exact ⟨_, rfl, (filters_of_ruled (announce_ruled _ _)).trans (arrive_filters (takeCommand_filters h) _ _ _)⟩
  | learnTelegram h p =>
    exact ⟨_, rfl, (filters_of_ruled (announce_ruled _ _)).trans
      (arrive_filters (fun _ _ => ite_filters (actOnLearn_filters _ _ _)) _ _ _)⟩
  | storeConfig block => exact ⟨_, rfl, atRelease_filters (storeConfig_filters block) s⟩
  -- Rows that leave every circuit and every balance filter as it was.
  | scanStep => exact ⟨_, rfl, ite_filters (filters_of_ruled (requestScan_ruled s))⟩
  | supplyConversionEnd v =>
    refine ⟨_, rfl, ?_⟩
    split
    · exact filters_of_ruled (((announce_ruled _ _).trans (release_ruled _)).trans (coastEdge_ruled _ _))
    all_goals rfl
  | spotPairEnd v i =>
    refine ⟨_, rfl, ?_⟩
    split
    · exact filters_of_ruled ((release_ruled _).trans (takeSpotPair_ruled _ _ _ _))
    all_goals rfl
  | reSendTimer => exact ⟨_, rfl, ite_filters (filters_of_ruled (queueCommand_ruled s))⟩
  | stalenessTimer => exact ⟨_, rfl, ite_filters (filters_of_ruled (announce_ruled _ _))⟩
  | queryTelegram h p =>
    exact ⟨_, rfl, arrive_filters (fun _ _ => ite_filters (filters_of_ruled (startReading_ruled _ _ _))) _ _ _⟩
  | readingTelegram h p =>
    exact ⟨_, rfl, arrive_filters (fun _ _ => ite_filters (filters_of_ruled (takeReading_ruled _ _ _ _ _))) _ _ _⟩
  | statusTelegram h p =>
    exact ⟨_, rfl, arrive_filters (fun s rep => filters_of_ruled (takeStatus_ruled s h rep)) _ _ _⟩
  | headClashDeadline =>
    have coast := coastEdge_ruled s { s with headClashAt := none, tell := { s.tell with clashEnd := some s.now } }
    refine ⟨_, rfl, ite_filters (filters_of_ruled ((announce_ruled _ _).trans ?_))⟩
    split
    · exact (headClashInput_ruled _ _).trans coast
    · exact coast
  | rosterExpiry place =>
    refine ⟨_, rfl, ?_⟩
    split
    · rfl
    · split
      · exact filters_of_ruled (expireSlot_ruled _ _ _)
      · exact filters_of_ruled (expireUnplaced_ruled _ _ _)
  | completion =>
    refine ⟨_, rfl, ?_⟩
    split
    · exact filters_of_ruled (complete_ruled _ _)
    all_goals rfl
  | statusTimer => exact ⟨_, rfl, ite_filters (filters_of_ruled (queueStatus_ruled _))⟩
  | holdoff => exact ⟨_, rfl, ite_filters (filters_of_ruled (queueStatus_ruled s))⟩
  | burstEnd =>
    refine ⟨_, rfl, ?_⟩
    split
    · rfl
    · exact filters_of_ruled ((announce_ruled _ _).trans (setRank_ruled _ _))
  | rankSilenceDeadline =>
    exact ⟨_, rfl, ite_filters (filters_of_ruled ((announce_ruled _ _).trans (setRank_ruled _ _)))⟩
  | learnTrackerDeadline serial => exact ⟨_, rfl, ite_filters (filters_of_ruled (untrack_ruled _ _ _))⟩
  | queryDeadline =>
    refine ⟨_, rfl, ?_⟩
    split
    · rfl
    · exact filters_of_ruled (raise_ruled _ _)
  -- Rows that write fields of the link, the rank line, WARN or the clocks, each under its condition.
  | candidateStart _ _ _ _ | badTelegram _ | warnBlinkHalf | trainSeconds | unlistedDeadline | aloneTimer | sendAttempt _
  | yieldLine _ | driveFault _ | cutOff _ | cutOffRecovery _ | lineStuck _ | lineStuckHoldEnd _ | rearBurstStart
  | rearPulse | frontHighStretch _ | frameStart =>
    refine ⟨_, rfl, ?_⟩
    repeat' split
    all_goals rfl
  -- The requests of the port.
  | badFrame | unknown _ | status | tallies => exact ⟨_, rfl, atRelease_filters_of_ruled (fun _ => reply_ruled _ _ _) s⟩
  | event => exact ⟨_, rfl, atRelease_filters_of_ruled (headOnly_ruled popEvent_ruled) s⟩
  | entry index => exact ⟨_, rfl, atRelease_filters_of_ruled (headOnly_ruled (readEntry_ruled index)) s⟩
  | ack index serial => exact ⟨_, rfl, atRelease_filters_of_ruled (headOnly_ruled (ack_ruled index serial)) s⟩
  | ackAll => exact ⟨_, rfl, atRelease_filters_of_ruled (headOnly_ruled ackAll_ruled) s⟩
  | clearFlags mask => exact ⟨_, rfl, atRelease_filters_of_ruled (headOnly_ruled (clearFlags_ruled mask)) s⟩
  | learn stations circuits =>
    exact ⟨_, rfl, atRelease_filters_of_ruled (headOnly_ruled (requestLearn_ruled stations circuits)) s⟩
  | spot rank circuit =>
    refine ⟨_, rfl, atRelease_filters_of_ruled (headOnly_ruled fun s => ?_) s⟩
    split
    · split
      · exact requestSpot_ruled _ _ _
      · rfl
    · rfl
  | spotResult => exact ⟨_, rfl, atRelease_filters_of_ruled (headOnly_ruled fun _ => reply_ruled _ _ _) s⟩
  | roster _ | localRead _ =>
    refine ⟨_, rfl, atRelease_filters (fun s => ?_) s⟩
    split <;> rfl

/-- Settles O19: judgement, the one row that applies verdicts, applies none to a coasting station, whose balance records
are thin; no other row writes a filter. -/
theorem coastingFreezesFilters : Obligations.CoastingFreezesFilters := by
  intro i s t reset restart coasts e
  obtain ⟨u, eu, kept⟩ := exec_coasting_filters i reset restart coasts
  cases eu.symm.trans e
  exact (filters_iff s t).1 kept

end Sys2Proof.Machine
end

section
/-! SUPPORT. The settle rule (R54, R55): the ring's answer changes only where the date of an entry comes into view. -/

namespace Sys2Proof.Machine

/-- R54: between two times at which no entry comes into view the ring gives one state. -/
theorem stateAt300_succ {ring : List RingEntry} {t : Ms} (h : ∀ e ∈ ring, e.date + 300 ≠ t + 1) (f : LampFn) :
    stateAt300 ring f (t + 1) = stateAt300 ring f t := by
  unfold stateAt300
  congr 1
  refine List.filter_congr fun e he => ?_
  rw [decide_eq_decide]
  exact ⟨fun le => Nat.le_of_lt_succ (lt_of_le_of_ne le (h e he)), Nat.le_succ_of_le⟩

/-- R55: a record is settled on v exactly when the ring gives v at the start and wherever an entry comes into view until
the end. -/
theorem settled_iff (ring : List RingEntry) (f : LampFn) (start finish : Ms) (v : FnState) :
    settled ring f start finish = some v ↔
      stateAt300 ring f start = some v ∧
        ∀ e ∈ ring, start < e.date + 300 → e.date ≤ finish + 300 → stateAt300 ring f (e.date + 300) = some v := by
  unfold settled
  cases first : stateAt300 ring f start with
  | none => simp
  | some w =>
    by_cases same : w = v
    · subst same
      simp
    · simp [same]

/-- Settles O21, by induction on the time from the start: where no entry comes into view the state stays, and where one
does the rule has looked. -/
theorem settledMeansOneValue : Obligations.SettledMeansOneValue := by
  intro ring f start finish v ordered
  rw [settled_iff]
  constructor
  · rintro ⟨first, views⟩ t after before
    induction t, after using Nat.le_induction with
    | base => exact first
    | succ t later ih =>
      by_cases view : ∃ e ∈ ring, e.date + 300 = t + 1
      · obtain ⟨e, mem, date⟩ := view
        rw [← date]
        exact views e mem (date ▸ Nat.lt_succ_of_le later) (Nat.le_of_add_le_add_right (date.le.trans before))
      · rw [stateAt300_succ (fun e mem date => view ⟨e, mem, date⟩)]
        exact ih (Nat.le_of_succ_le before)
  · intro one
    exact ⟨one start le_rfl (Nat.le_add_right_of_le ordered),
      fun e _ after before => one _ after.le (Nat.add_le_add_right before 300)⟩

end Sys2Proof.Machine
end

section
/-! SUPPORT. The timers of the station (R53, R125, R136, R155, R172, R176, R195). -/

namespace Sys2Proof.Machine

/-! ## STATUS_TIMER, HOLDOFF -/

/-- R136: a STATUS queued reaches the link and the telling, restarts both timers, and waits in its slot where the station
may send. -/
theorem queueStatus_spec (s : State) :
    s.queueStatus = { s with link := s.queueStatus.link, tell := s.queueStatus.tell } ∧
      s.queueStatus.tell = { s.tell with statusAt := s.now + 500, holdoffAt := s.now + 100, waiting := false } ∧
      (s.isSilent = false → s.queueStatus.link.slots = { s.link.slots with status := some s.report.encode }) ∧
      (s.isSilent = true → s.queueStatus.link = s.link) := by
  rcases queueStatus_cases s with ⟨silent, e⟩ | ⟨speaks, e⟩ <;> rw [e]
  · exact ⟨rfl, rfl, fun speaks => absurd (silent.symm.trans speaks) (by decide), fun _ => rfl⟩
  · exact ⟨rfl, rfl, fun _ => rfl, fun silent => absurd (speaks.symm.trans silent) (by decide)⟩

/-- R136: the row of a STATUS timer that has expired. -/
theorem statusTimer_eq {s : State} (past : s.tell.statusAt ≤ s.now) :
    exec .statusTimer s = .next (State.queueStatus { s with tell := { s.tell with expiredAt := some s.now } }) := by
  simp [exec, execStatusTimer, State.statusDue, past]

/-- R136: the row of a holdoff that has run out with a change waiting. -/
theorem holdoff_eq {s : State} (waits : s.tell.waiting = true) (past : s.tell.holdoffAt ≤ s.now) :
    exec .holdoff s = .next s.queueStatus := by
  simp [exec, execHoldoff, State.holdoffDue, waits, past]

/-! ## STALENESS_TIMER, HEAD_CLASH_DEADLINE -/

/-- R53: the row of a staleness timer that has expired. -/
theorem stalenessTimer_eq {s : State} {at_ : Ms} (unit : s.isHead = false) (timer : s.cmd.staleAt = some at_)
    (past : at_ ≤ s.now) :
    exec .stalenessTimer s = .next (announce s { s with cmd := { s.cmd with staleAt := none } }) := by
  simp [exec, execStalenessTimer, State.stalenessDue, unit, reached_some timer past]

/-- R155: a unit whose head clash has ended, before the change is noted. -/
def State.clashEnded (s : State) : State :=
  { s with headClashAt := none, tell := { s.tell with clashEnd := some s.now } }

/-- R59, R155: the row of a unit's head clash deadline; a unit raises no coast event. -/
theorem headClashDeadline_unit {s : State} {at_ : Ms} (unit : s.isHead = false) (timer : s.headClashAt = some at_)
    (past : at_ ≤ s.now) : exec .headClashDeadline s = .next (announce s s.clashEnded) := by
  have noEvent : coastEdge s s.clashEnded = s.clashEnded := by
    have raised := raise_unit (s := s.clashEnded) unit
    rcases coastEdge_cases s s.clashEnded with ⟨_, e⟩ | ⟨_, _, e⟩ | ⟨_, _, e⟩
    · exact e
    · exact e.trans (raised _)
    · exact e.trans (raised _)
  simp only [exec, execHeadClashDeadline, reached_some timer past, if_true, unit, Bool.false_eq_true, if_false]
  exact congrArg (fun x => Host.Outcome.next (announce s x)) noEvent

/-- R136, R155: the end of a head clash changes the active cause set. -/
theorem clashEnded_news {s : State} {at_ : Ms} (clash : s.headClashAt = some at_) : s.clashEnded.news ≠ s.news := by
  intro same
  have cause : s.headClashAt.isSome = false := (congrArg (fun n => n.causes.headClash) same).symm
  rw [clash] at cause
  cases cause

/-- R136: a change between two states is noted. -/
theorem announce_change {b s : State} (h : s.news ≠ b.news) : announce b s = s.noteChange := if_neg h

/-- Settles O37: each due row runs its one operation; what a noted change leaves is `noteChange_cases`. -/
theorem timersOfTheStation : Obligations.TimersOfTheStation := by
  intro s
  refine ⟨fun past => ?_, fun waits past => ?_, fun at_ unit timer past => ?_, fun at_ unit timer past => ?_,
    fun at_ blink timer past => ?_, fun head past => ?_, fun at_ timer past => ?_, fun at_ listening timer past => ?_,
    fun steady => ?_, fun unit => ?_, fun r present => ?_⟩
  · obtain ⟨frame, tell, speaks, silent⟩ := queueStatus_spec { s with tell := { s.tell with expiredAt := some s.now } }
    refine ⟨_, statusTimer_eq past, frame, ?_⟩
    rw [tell]
    exact ⟨rfl, rfl, rfl, speaks, silent⟩
  · obtain ⟨frame, tell, speaks, _⟩ := queueStatus_spec s
    refine ⟨_, holdoff_eq waits past, frame, ?_⟩
    rw [tell]
    exact ⟨rfl, rfl, rfl, speaks⟩
  · refine ⟨_, stalenessTimer_eq unit timer past, ?_⟩
    rw [announce_frame]
    refine ⟨rfl, rfl, ?_⟩
    show (!s.isHead && true) = true
    rw [unit]
    rfl
  · refine ⟨_, headClashDeadline_unit unit timer past, ?_⟩
    rw [announce_change (clashEnded_news timer)]
    rcases noteChange_cases s.clashEnded with ⟨due, e⟩ | ⟨later, unexpired, e⟩ <;> rw [e]
    · obtain ⟨frame, tell, speaks, _⟩ := queueStatus_spec s.clashEnded
      refine ⟨frame.trans rfl, by rw [frame]; rfl, fun _ => ?_, fun later unexpired => ?_⟩
      · have told : s.clashEnded.queueStatus.report = s.clashEnded.report := by rw [frame]; rfl
        rw [tell, told]
        exact ⟨rfl, rfl, rfl, speaks⟩
      · exact absurd due (not_or.2 ⟨Nat.not_le_of_lt later, unexpired⟩)
    · exact ⟨rfl, rfl, fun due => absurd later (Nat.not_lt_of_le due), fun _ _ => ⟨rfl, rfl⟩⟩
  · have due : s.blinkDue = true := by simp [State.blinkDue, blink, reached_some timer past]
    simp [exec, execWarnBlinkHalf, due, blink, timer]
  · simp [exec, execTrainSeconds, State.secondDue, head, past]
  · simp [exec, execUnlistedDeadline, reached_some timer past]
  · simp [exec, execAloneTimer, State.aloneDue, listening, reached_some timer past]
  · simp [exec, execWarnBlinkHalf, State.blinkDue, steady]
  · simp [exec, execTrainSeconds, State.secondDue, unit]
  · rcases present with h | h <;> simp [exec, execAloneTimer, State.aloneDue, h]

end Sys2Proof.Machine
end

section
/-! SUPPORT. The head's intent (R48, R49): a line's change under a new epoch, and the re-send timer. -/

namespace Sys2Proof.Machine

/-! ## The function states of the intents -/

/-- R48: the function state of a debounced intent line. -/
theorem intentStates_get (d : Vector Bool 8) (f : LampFn) :
    (intentStates d)[f.idx] = if d[f.idx] then (if f.isTurn then .flashing else .on) else .off := by
  have own : LampFn.ofIdx f.idx = f := by cases f <;> rfl
  unfold intentStates
  rw [eight_get, own]

/-! ## INTENT_DEBOUNCE -/

/-- R52: the entry added is the newest, whether the ring had room or not. -/
theorem ringAdd_last (ring : List RingEntry) (e : RingEntry) : (ringAdd ring e).getLast? = some e := by
  unfold ringAdd
  split <;> exact List.getLast?_concat

/-- R136: a noted change reaches no slot of the pending set but STATUS's. -/
theorem announce_slots (b s : State) :
    (announce b s).link.slots = { s.link.slots with status := (announce b s).link.slots.status } := by
  rcases announce_cases b s with ⟨_, e⟩ | ⟨_, e⟩ <;> rw [e]
  rcases noteChange_cases s with ⟨_, e⟩ | ⟨_, _, e⟩ <;> rw [e]
  rcases queueStatus_cases s with ⟨_, e⟩ | ⟨_, e⟩ <;> rw [e]

/-- R48: a line's debounced value changed and its count restarted. -/
def State.flipped (s : State) (line : IntentLine) : State := { s with intent := s.intent.flip line }

/-- R48, R49: the row of a line's 30th opposite read. -/
theorem intentDebounce_eq {s : State} {line : IntentLine} (due : s.debounceDue line = true) :
    exec (.intentDebounce line) s = .next (announce s (coastEdge s (s.flipped line).epochChange)) :=
  congrArg Host.Outcome.next (if_pos due)

/-- R48, R49, R52: what a due change of a line leaves: the flip, the next epoch, the newest ring entry, and the COMMAND of
the state reached in its slot, which neither a change of coasting nor a STATUS touches. -/
theorem intentDebounce_leaves {s : State} (speaks : s.isSilent = false) (line : IntentLine) :
    let x := s.intent.flip line
    let t := announce s (coastEdge s (s.flipped line).epochChange)
    t = { s with
      intent := x, source := t.source, ring := t.ring, circuits := t.circuits, link := t.link, tell := t.tell
      events := t.events, flags := t.flags } ∧
    t.source = { s.source with epoch := s.source.epoch + 1, resendAt := s.now + 250 } ∧
    t.ring.getLast? = some ⟨s.source.epoch + 1, intentStates x.debounced, s.source.reported, x.crank, s.now⟩ ∧
    t.link.slots.command = some t.commandContent.encode := by
  obtain ⟨source, ring, slots⟩ := epochChange_speaks (s := s.flipped line) speaks
  refine ⟨?_, ?_, ?_, ?_⟩
  · rw [announce_frame, coastEdge_frame, epochChange_frame]
    rfl
  · rw [announce_frame, coastEdge_frame]
    exact source
  · rw [announce_frame, coastEdge_frame]
    exact (congrArg List.getLast? ring).trans (ringAdd_last _ _)
  · rw [announce_slots, announce_frame, coastEdge_frame]
    exact congrArg Slots.command slots

/-- R49: the re-send timer queues the current COMMAND again. -/
theorem reSendTimer_eq {s : State} (head : s.isHead = true) (speaks : s.isSilent = false) (past : s.source.resendAt ≤ s.now) :
    exec .reSendTimer s = .next { s with
      source := { s.source with resendAt := s.now + 250 }
      link := { s.link with
        slots := { s.link.slots with command := some s.commandContent.encode }, tx := s.link.tx.queued .command } } := by
  have due : s.reSendDue = true := by simp [State.reSendDue, head, past]
  rcases queueCommand_cases s with ⟨silent, _⟩ | ⟨_, e⟩
  · exact absurd (speaks.symm.trans silent) (by decide)
  · exact congrArg Host.Outcome.next ((if_pos due).trans e)

/-- Settles O36: a due line by what `intentDebounce_leaves` says of its flip, the re-send timer by its row, the function
states by `intentStates_get`. -/
theorem intentChangeIssuesEpoch : Obligations.IntentChangeIssuesEpoch := by
  intro s head speaks
  refine ⟨fun f reads => ?_, fun reads => ?_, fun past => ?_, fun f => ?_, rfl, rfl, rfl, rfl⟩
  · have due : s.debounceDue (.int f) = true := by simpa [State.debounceDue, head] using reads
    obtain ⟨frame, source, ring, command⟩ := intentDebounce_leaves speaks (.int f)
    have intent := congrArg State.intent frame
    refine ⟨_, intentDebounce_eq due, ?_⟩
    rw [intent]
    exact ⟨frame, put_same _ _ _, put_same _ _ _, rfl, fun g other => put_other _ _ other, source, ring, command⟩
  · have due : s.debounceDue .crank = true := by simp [State.debounceDue, head, reads]
    obtain ⟨frame, source, _, command⟩ := intentDebounce_leaves speaks .crank
    have intent := congrArg State.intent frame
    refine ⟨_, intentDebounce_eq due, ?_, ?_, ?_, ?_, command⟩
    · rw [intent]; rfl
    · rw [intent]; rfl
    · rw [source]
    · rw [frame]
      exact if_pos head
  · exact ⟨_, reSendTimer_eq head speaks past, rfl, rfl, rfl⟩
  · rw [intentStates_get]
    cases s.intent.debounced[f.idx] <;> cases f <;> rfl

end Sys2Proof.Machine
end

section
/-! SUPPORT. A record taken for judgement (R46, R47, R60, R74, R84, R101, R109): what each operation of it reaches. -/

namespace Sys2Proof.Machine

/-! ## One of eight -/

theorem put_put {α : Type} (v : Vector α 8) (c : Circ) (x y : α) : put (put v c x) c y = put v c y :=
  Vector.set_set _ _

theorem put_self {α : Type} (v : Vector α 8) (c : Circ) : put v c v[c] = v := Vector.set_getElem_self _

theorem setC_own (s : State) (c : Circ) (k : Circuit) : (s.setC c k).circuits[c] = k := put_same _ _ _

theorem setC_setC (s : State) (c : Circ) (k l : Circuit) : (s.setC c k).setC c l = s.setC c l := by
  unfold State.setC
  dsimp only
  rw [put_put]

/-! ## The fault list -/

/-- R180, R195, R200: from s to t at most the fault list, WARN, the event queue and the sticky flags change. -/
def ListOnly (s t : State) : Prop :=
  t = { s with faults := t.faults, warn := t.warn, events := t.events, flags := t.flags }

theorem ListOnly.refl (s : State) : ListOnly s s := rfl

theorem ListOnly.trans {s t u : State} (h : ListOnly s t) (g : ListOnly t u) : ListOnly s u := by
  unfold ListOnly at h g ⊢
  rw [g, h]

theorem ListOnly.foldl {α : Type} {f : State → α → State} (h : ∀ s a, ListOnly s (f s a)) (l : List α) (s : State) :
    ListOnly s (l.foldl f s) := by
  induction l generalizing s with
  | nil => exact .refl s
  | cons a l ih => exact (h s a).trans (ih _)

theorem settleList_listOnly (s : State) : ListOnly s s.settleList := by
  apply state_ext <;> simp

theorem confirm_listOnly (s : State) (k : Key) (d : Details) (claim : Option Rank) :
    ListOnly s (s.confirm k d claim) := by
  apply state_ext <;> simp

theorem clear_listOnly (s : State) (k : Key) : ListOnly s (s.clear k) := by
  apply state_ext <;> simp

theorem detail_listOnly (s : State) (k : Key) (g : Details → Details) : ListOnly s (s.detail k g) := rfl

theorem headConfirmed_listOnly (s : State) (c : Circ) (k : FaultKind) : ListOnly s (s.headConfirmed c k) := by
  unfold State.headConfirmed
  dsimp only
  split
  · split
    · exact detail_listOnly _ _ _
    · exact confirm_listOnly _ _ _ _
  · exact confirm_listOnly _ _ _ _

theorem headCleared_listOnly (s : State) (c : Circ) (k : FaultKind) : ListOnly s (s.headCleared c k) := by
  unfold State.headCleared
  dsimp only
  split
  · split
    · exact (detail_listOnly _ _ _).trans (clear_listOnly _ _)
    · exact detail_listOnly _ _ _
  · exact clear_listOnly _ _

/-- R184: an outcome of a filter of the head. -/
theorem headOutcome_listOnly (c : Circ) (s : State) (o : FilterOutcome) : ListOnly s (State.headOutcome c s o) := by
  refine .trans ?_ (settleList_listOnly _)
  cases o with
  | confirmed k => exact headConfirmed_listOnly _ _ _
  | cleared k => exact headCleared_listOnly _ _ _
  | detailsChanged k => exact .refl s
  | refreshed k => exact .refl s

/-- R185: an outcome of a balance filter. -/
theorem balanceOutcome_listOnly (f : LampFn) (sign : Option Sign) (s : State) (o : FilterOutcome) :
    ListOnly s (State.balanceOutcome f sign s o) := by
  refine .trans ?_ (settleList_listOnly _)
  cases o with
  | confirmed k => exact confirm_listOnly _ _ _ _
  | cleared k => exact clear_listOnly _ _
  | detailsChanged k => exact detail_listOnly _ _ _
  | refreshed k => exact .refl s

/-! ## The reference unit and the write engine -/

/-- R101, R103, R109: what a lamp sample of circuit c is taken by. -/
def State.bench (s : State) (c : Circ) := (s.circuits[c].ref, s.circuits[c].cfg, s.writes, s.now)

theorem bench_eq {s t : State} {c : Circ} (h : t.bench c = s.bench c) :
    t.circuits[c].ref = s.circuits[c].ref ∧ t.circuits[c].cfg = s.circuits[c].cfg ∧ t.writes = s.writes ∧
      t.now = s.now := by
  simpa only [State.bench, Prod.mk.injEq] using h

/-- What a lamp sample of circuit c changes: its reference unit and the write engine. -/
def State.sampled (s : State) (c : Circ) (ref : RefUnit) (w : WriteEngine) : State :=
  { s.setC c { s.circuits[c] with ref := ref } with writes := w }

theorem sampled_same (s : State) (c : Circ) : s.sampled c s.circuits[c].ref s.writes = s := by
  have same : put s.circuits c s.circuits[c] = s.circuits := put_self _ _
  unfold State.sampled State.setC
  rw [same]

theorem sampled_ref (s : State) (c : Circ) (ref : RefUnit) (w : WriteEngine) :
    (s.sampled c ref w).circuits[c].ref = ref := by
  show (put s.circuits c _)[c].ref = ref
  rw [put_same]

/-- R109: an engine that is busy goes on with its write. -/
theorem startWrite_busy {s : State} (busy : s.writes.current ≠ none) : s.startWrite = s := by
  rcases startWrite_cases s with ⟨_, e⟩ | ⟨_, free, _⟩ | ⟨_, _, free, _⟩ | ⟨_, e⟩
  · exact e
  · exact absurd free busy
  · exact absurd free busy
  · exact e

theorem add_current (w : WriteEngine) (c : Circ) (iref : Nat) : (w.add c iref).current = w.current := by
  unfold WriteEngine.add
  split <;> rfl

/-- R109: a free engine that has nothing waiting starts the write of a new reference at once. -/
theorem startWrite_adopted {s : State} (free : s.writes = ⟨[], none, none⟩) (c : Circ) (k : Circuit) (iref : Nat) :
    State.startWrite { s.setC c k with writes := s.writes.add c iref } =
      { s.setC c { k with ref := { k.ref with save := .writing } } with
        writes := ⟨[], none, some ⟨.reference c, withCheck (refContent iref), s.now + 10⟩⟩ } := by
  have added : s.writes.add c iref = ⟨[⟨c, iref⟩], none, none⟩ := by rw [free]; rfl
  have own : (put s.circuits c k)[c] = k := put_same _ _ _
  rw [added]
  show State.setSave { s.setC c k with writes := _ } c .writing = _
  unfold State.setSave State.setC
  dsimp only
  rw [own, put_put]
  rfl

/-- R104: eight samples out of the adoption window. -/
theorem finishLearning_fails {s : State} {c : Circ} {sum : Nat}
    (outside : ¬ s.circuits[c].cfg.adopts ((sum + 4) / 8) = true) :
    s.finishLearning c sum = s.sampled c (s.circuits[c].ref.fail .failedOutOfRange) s.writes := if_neg outside

/-- R103, R109: a new reference waits for an engine that is busy. -/
theorem finishLearning_waits {s : State} {c : Circ} {sum : Nat} (adopts : s.circuits[c].cfg.adopts ((sum + 4) / 8) = true)
    (busy : s.writes.current ≠ none) :
    s.finishLearning c sum =
      s.sampled c (s.circuits[c].ref.adopt ((sum + 4) / 8)) (s.writes.add c ((sum + 4) / 8)) :=
  (if_pos adopts).trans (startWrite_busy (by rw [add_current]; exact busy))

/-- R103, R109: a new reference is written at once by an engine that is free. -/
theorem finishLearning_starts {s : State} {c : Circ} {sum : Nat} (adopts : s.circuits[c].cfg.adopts ((sum + 4) / 8) = true)
    (free : s.writes = ⟨[], none, none⟩) :
    s.finishLearning c sum = s.sampled c { s.circuits[c].ref.adopt ((sum + 4) / 8) with save := .writing }
      ⟨[], none, some ⟨.reference c, withCheck (refContent ((sum + 4) / 8)), s.now + 10⟩⟩ :=
  (if_pos adopts).trans (startWrite_adopted free c _ _)

/-- R109: an engine that keeps its law is busy or has nothing waiting. -/
theorem writeLaw_cases {s : State} (law : s.writeLaw = true) : s.writes.current ≠ none ∨ s.writes = ⟨[], none, none⟩ := by
  by_cases free : s.writes.current = none
  · obtain ⟨slot, queue⟩ := ((writeLaw_iff _).1 law).1 free
    refine .inr ?_
    rcases h : s.writes with ⟨q, b, w⟩
    simp_all
  · exact .inl free

/-- R103, R104, R109: what the eighth sample of circuit c changes is the same on every station with the same bench. -/
theorem finishLearning_local {s : State} (law : s.writeLaw = true) (c : Circ) (sum : Nat) :
    ∃ ref w, ∀ t : State, t.bench c = s.bench c → t.finishLearning c sum = t.sampled c ref w := by
  by_cases adopts : s.circuits[c].cfg.adopts ((sum + 4) / 8) = true
  · rcases writeLaw_cases law with busy | free
    · refine ⟨s.circuits[c].ref.adopt ((sum + 4) / 8), s.writes.add c ((sum + 4) / 8), fun t same => ?_⟩
      obtain ⟨ref, cfg, writes, now⟩ := bench_eq same
      rw [← ref, ← writes]
      exact finishLearning_waits (cfg ▸ adopts) (writes ▸ busy)
    · refine ⟨{ s.circuits[c].ref.adopt ((sum + 4) / 8) with save := .writing },
        ⟨[], none, some ⟨.reference c, withCheck (refContent ((sum + 4) / 8)), s.now + 10⟩⟩, fun t same => ?_⟩
      obtain ⟨ref, cfg, writes, now⟩ := bench_eq same
      rw [← ref, ← now]
      exact finishLearning_starts (cfg ▸ adopts) (writes.trans free)
  · refine ⟨s.circuits[c].ref.fail .failedOutOfRange, s.writes, fun t same => ?_⟩
    obtain ⟨ref, cfg, writes, now⟩ := bench_eq same
    rw [← ref, ← writes]
    exact finishLearning_fails (cfg ▸ adopts)

/-- R101: so is what any sample changes. -/
theorem handSample_local {s : State} (law : s.writeLaw = true) (c : Circ) (sample : Nat) :
    ∃ ref w, ∀ t : State, t.bench c = s.bench c → t.handSample c sample = t.sampled c ref w := by
  unfold State.handSample
  dsimp only
  by_cases learning : s.circuits[c].ref.learn = .learning
  · by_cases agrees : s.circuits[c].ref.agrees sample = true
    · by_cases eighth : 8 ≤ s.circuits[c].ref.k + 1
      · obtain ⟨r, w, finish⟩ := finishLearning_local law c (s.circuits[c].ref.sum + sample)
        refine ⟨r, w, fun t same => ?_⟩
        obtain ⟨ref, -, -, -⟩ := bench_eq same
        rw [ref, if_pos learning, if_pos agrees, if_pos eighth]
        exact finish t same
      · refine ⟨{ s.circuits[c].ref with k := s.circuits[c].ref.k + 1, sum := s.circuits[c].ref.sum + sample }, s.writes,
          fun t same => ?_⟩
        obtain ⟨ref, -, writes, -⟩ := bench_eq same
        rw [ref, if_pos learning, if_pos agrees, if_neg eighth, ← writes]
        rfl
    · refine ⟨{ s.circuits[c].ref with k := 1, sum := sample }, s.writes, fun t same => ?_⟩
      obtain ⟨ref, -, writes, -⟩ := bench_eq same
      rw [ref, if_pos learning, if_neg agrees, ← writes]
      rfl
  · refine ⟨s.circuits[c].ref, s.writes, fun t same => ?_⟩
    obtain ⟨ref, -, writes, -⟩ := bench_eq same
    rw [ref, if_neg learning, ← ref, ← writes, sampled_same]

theorem handSample_congr {s t : State} (law : s.writeLaw = true) {c : Circ} (same : t.bench c = s.bench c)
    (sample : Nat) :
    (t.handSample c sample).circuits[c].ref = (s.handSample c sample).circuits[c].ref ∧
      (t.handSample c sample).writes = (s.handSample c sample).writes := by
  obtain ⟨ref, w, hand⟩ := handSample_local law c sample
  rw [hand t same, hand s rfl, sampled_ref, sampled_ref]
  exact ⟨rfl, rfl⟩

/-! ## The verdict applied -/

/-- R91, R167: what follows a change of state s reaches the fault list and what hangs on it, and on a unit nothing. -/
structure Listed (s t : State) : Prop where
  frame : ListOnly s t
  unit : s.isHead = false → t = s

theorem Listed.refl (s : State) : Listed s s := ⟨.refl s, fun _ => rfl⟩

theorem sampled_listed {s t : State} (h : Listed s t) (c : Circ) (ref : RefUnit) (w : WriteEngine) :
    Listed (s.sampled c ref w) (t.sampled c ref w) where
  frame := by
    have frame := h.frame
    unfold ListOnly at frame ⊢
    rw [frame]
    rfl
  unit one := by rw [h.unit one]

/-- R84, R91: an applied verdict is taken by the circuit's filter, whose outcomes on the head reach the fault list. -/
theorem applyFilter_listed (s : State) (c : Circ) (v : Verdict) :
    Listed (s.setC c { s.circuits[c] with filter := (s.circuits[c].filter.take v.evidence).1 }) (s.applyFilter c v) where
  frame := by
    unfold State.applyFilter
    dsimp only
    split
    · exact ListOnly.foldl (headOutcome_listOnly c) _ _
    · exact .refl _
  unit one := applyFilter_unit (s := s) one c v

theorem applyFilter_bench (s : State) (c : Circ) (v : Verdict) : (s.applyFilter c v).bench c = s.bench c := by
  have frame := (applyFilter_listed s c v).frame
  unfold ListOnly at frame
  rw [frame]
  show ((put s.circuits c _)[c].ref, (put s.circuits c _)[c].cfg, s.writes, s.now) = _
  rw [put_same]
  rfl

/-- What judgement changes of circuit c before its record is kept: filter, reference unit and the write engine. -/
def State.applied (s : State) (c : Circ) (f : Filter) (ref : RefUnit) (w : WriteEngine) : State :=
  { s.setC c { s.circuits[c] with filter := f, ref := ref } with writes := w }

theorem applied_same (s : State) (c : Circ) : s.applied c s.circuits[c].filter s.circuits[c].ref s.writes = s :=
  sampled_same s c

theorem setC_sampled (s : State) (c : Circ) (f : Filter) (ref : RefUnit) (w : WriteEngine) :
    (s.setC c { s.circuits[c] with filter := f }).sampled c ref w = s.applied c f ref w := by
  have own (k : Circuit) : (put s.circuits c k)[c] = k := put_same _ _ _
  unfold State.sampled State.applied State.setC
  dsimp only
  rw [own, put_put]

/-- R60, R74, R84, R101: what a verdict leaves of the filter, the reference unit and the engine: an applied one is taken
by the filter, with its lamp sample by the other two; a thin record and a coasting station leave all three. -/
structure Applies (s : State) (c : Circ) (v : Option Verdict) (f : Filter) (ref : RefUnit) (w : WriteEngine) : Prop where
  thin : v = none ∨ s.coasting = true → f = s.circuits[c].filter ∧ ref = s.circuits[c].ref ∧ w = s.writes
  filter : ∀ x, v = some x → s.coasting = false → f = (s.circuits[c].filter.take x.evidence).1
  noLamp : ∀ x, v = some x → s.coasting = false → x.lamp = none → ref = s.circuits[c].ref ∧ w = s.writes
  lamp : ∀ x l, v = some x → s.coasting = false → x.lamp = some l →
    ref = (s.handSample c l.inorm).circuits[c].ref ∧ w = (s.handSample c l.inorm).writes

theorem applies_thin {s : State} {v : Option Verdict} (h : v = none ∨ s.coasting = true) (c : Circ) :
    Applies s c v s.circuits[c].filter s.circuits[c].ref s.writes where
  thin _ := ⟨rfl, rfl, rfl⟩
  filter x judged runs := by
    rcases h with thin | coasts
    · cases thin.symm.trans judged
    · cases coasts.symm.trans runs
  noLamp _ _ _ _ := ⟨rfl, rfl⟩
  lamp x l judged runs _ := by
    rcases h with thin | coasts
    · cases thin.symm.trans judged
    · cases coasts.symm.trans runs

/-- R60, R74: a thin record and a coasting station apply nothing. -/
theorem applyVerdict_thin {s : State} {v : Option Verdict} (h : v = none ∨ s.coasting = true) (c : Circ) :
    s.applyVerdict c v = s := by
  rcases h with rfl | coasts
  · rfl
  · exact applyVerdict_coasting coasts c v

/-- R74: a verdict applied without a lamp sample, and one with it. -/
theorem applyVerdict_noLamp {s : State} {x : Verdict} (runs : s.coasting = false) (lamp : x.lamp = none) (c : Circ) :
    s.applyVerdict c (some x) = s.applyFilter c x := by simp [State.applyVerdict, runs, lamp]

theorem applyVerdict_lamp {s : State} {x : Verdict} {l : LampStages} (runs : s.coasting = false) (lamp : x.lamp = some l)
    (c : Circ) : s.applyVerdict c (some x) = (s.applyFilter c x).handSample c l.inorm := by
  simp [State.applyVerdict, runs, lamp]

theorem applyVerdict_leaves {s : State} (law : s.writeLaw = true) (c : Circ) (v : Option Verdict) :
    ∃ f ref w, Applies s c v f ref w ∧ Listed (s.applied c f ref w) (s.applyVerdict c v) := by
  by_cases thin : v = none ∨ s.coasting = true
  · refine ⟨_, _, _, applies_thin thin c, ?_⟩
    rw [applied_same, applyVerdict_thin thin]
    exact .refl s
  · obtain ⟨judged, runs⟩ := not_or.1 thin
    obtain ⟨x, rfl⟩ := Option.ne_none_iff_exists'.1 judged
    have runs : s.coasting = false := Bool.eq_false_of_not_eq_true runs
    have taken := applyFilter_listed s c x
    have sampledBy (ref : RefUnit) (w : WriteEngine) :
        Listed (s.applied c (s.circuits[c].filter.take x.evidence).1 ref w) ((s.applyFilter c x).sampled c ref w) := by
      rw [← setC_sampled]
      exact sampled_listed taken c ref w
    cases lamp : x.lamp with
    | none =>
      refine ⟨(s.circuits[c].filter.take x.evidence).1, s.circuits[c].ref, s.writes,
        ⟨fun h => absurd h thin, ?_, fun _ _ _ _ => ⟨rfl, rfl⟩, ?_⟩, ?_⟩
      · rintro _ ⟨⟩ _
        rfl
      · rintro _ l ⟨⟩ _ stages
        cases lamp.symm.trans stages
      · rw [applyVerdict_noLamp runs lamp]
        obtain ⟨ref, -, writes, -⟩ := bench_eq (applyFilter_bench s c x)
        have same := sampledBy s.circuits[c].ref s.writes
        rwa [← ref, ← writes, sampled_same, ref, writes] at same
    | some l =>
      obtain ⟨ref, w, hand⟩ := handSample_local law c l.inorm
      refine ⟨(s.circuits[c].filter.take x.evidence).1, ref, w, ⟨fun h => absurd h thin, ?_, ?_, ?_⟩, ?_⟩
      · rintro _ ⟨⟩ _
        rfl
      · rintro _ ⟨⟩ _ unstaged
        cases lamp.symm.trans unstaged
      · rintro _ m ⟨⟩ _ stages
        cases lamp.symm.trans stages
        rw [hand s rfl, sampled_ref]
        exact ⟨rfl, rfl⟩
      · rw [applyVerdict_lamp runs lamp, hand _ (applyFilter_bench s c x)]
        exact sampledBy ref w

/-! ## The balance record -/

/-- R167, R171: a balance record reaches the balance checker, and its filter's outcomes the fault list. -/
theorem keepBalance_frame (s : State) (f : LampFn) (b : BalanceRecord) :
    let t := s.keepBalance f b
    t = { s with balance := t.balance, faults := t.faults, warn := t.warn, events := t.events, flags := t.flags } := by
  have listed (x : Balance) (sign : Option Sign) (outs : List FilterOutcome) :=
    ListOnly.foldl (balanceOutcome_listOnly f sign) outs { s with balance := x }
  unfold ListOnly at listed
  unfold State.keepBalance
  dsimp only
  split
  · rfl
  · rw [listed]

theorem formBalance_frame (s : State) (c : Circ) (r : Rec) (clean : Bool) :
    let t := s.formBalance c r clean
    t = { s with balance := t.balance, faults := t.faults, warn := t.warn, events := t.events, flags := t.flags } := by
  dsimp only
  rcases formBalance_cases s c r clean with e | ⟨_, _, _, e⟩ <;> rw [e]
  exact keepBalance_frame _ _ _

/-! ## The row -/

/-- R46, R55: the verdict of a record of circuit c by its settled expected state; none is thin or not settled. -/
def State.verdictOf (s : State) (c : Circ) (r : Rec) : Option Verdict :=
  (settled s.ring s.circuits[c].cfg.fn r.start r.finish).bind (s.verdict s.circuits[c] r)

/-- R46: a record that is due leaves the front of its circuit's queue, is judged by the settled state, applied, kept, and
looked at for a balance. -/
theorem judge_eq {s : State} {c : Circ} {r : Rec} {rest : List Rec} (queue : s.circuits[c].queue = r :: rest)
    (due : r.due s.now = true) :
    let v := s.verdictOf c r
    s.judge c r = (((s.setC c { s.circuits[c] with queue := rest }).applyVerdict c v).keepLast c r v).formBalance c r
      (cleanAgainstOn (settled s.ring s.circuits[c].cfg.fn r.start r.finish) v) := by
  have front : s.circuits[c].queue.eraseP (·.due s.now) = rest := by
    rw [queue]
    exact List.eraseP_cons_of_pos (p := fun x : Rec => x.due s.now) due
  unfold State.judge
  dsimp only
  rw [front]
  rfl

/-- R46: the row of a queued record that is due. -/
theorem takenForJudgement_eq {s : State} {c : Circ} {r : Rec} {rest : List Rec}
    (queue : s.circuits[c].queue = r :: rest) (due : r.due s.now = true) :
    exec (.takenForJudgement c) s = .next (announce s (s.judge c r)) := by
  have first : s.circuits[c].dueRecord s.now = some r := by
    unfold Circuit.dueRecord
    rw [queue]
    exact List.find?_cons_of_pos (p := fun x : Rec => x.due s.now) due
  simp only [exec, execTakenForJudgement]
  rw [first]

/-- What a record taken for judgement leaves of its circuit. -/
def Circuit.judged (k : Circuit) (rest : List Rec) (last : LastRecord) (f : Filter) (ref : RefUnit) : Circuit :=
  { k with queue := rest, last := some last, filter := f, ref := ref }

theorem keepLast_listed {s t : State} (h : Listed s t) (c : Circ) (r : Rec) (v : Option Verdict) :
    Listed (s.keepLast c r v) (t.keepLast c r v) where
  frame := by
    have frame := h.frame
    unfold ListOnly at frame ⊢
    rw [frame]
    rfl
  unit one := by rw [h.unit one]

/-- R46, R47: the circuit of a record taken, applied and kept. -/
theorem applied_keepLast (s : State) (c : Circ) (f : Filter) (ref : RefUnit) (w : WriteEngine) (r : Rec)
    (v : Option Verdict) :
    (s.applied c f ref w).keepLast c r v =
      { s.setC c (s.circuits[c].judged s.circuits[c].queue ⟨r.kind, meanOf r.sumI r.n, v⟩ f ref) with writes := w } := by
  have own : (s.applied c f ref w).circuits[c] = { s.circuits[c] with filter := f, ref := ref } := setC_own _ _ _
  have again (k l : Circuit) : put (put s.circuits c k) c l = put s.circuits c l := put_put _ _ _ _
  unfold State.keepLast
  rw [own]
  unfold State.applied State.setC Circuit.judged
  dsimp only
  rw [again]

/-- The record's leaving the queue makes no difference to what its verdict leaves. -/
theorem applies_dequeued {s : State} (law : s.writeLaw = true) {c : Circ} {rest : List Rec} {v : Option Verdict}
    {f : Filter} {ref : RefUnit} {w : WriteEngine}
    (h : Applies (s.setC c { s.circuits[c] with queue := rest }) c v f ref w) : Applies s c v f ref w := by
  have own : (s.setC c { s.circuits[c] with queue := rest }).circuits[c] = { s.circuits[c] with queue := rest } :=
    put_same _ _ _
  have bench : (s.setC c { s.circuits[c] with queue := rest }).bench c = s.bench c := by
    unfold State.bench
    rw [own]
    rfl
  obtain ⟨thin, filter, noLamp, lamp⟩ := h
  rw [own] at thin filter noLamp
  refine ⟨thin, filter, noLamp, fun x l judged runs stages => ?_⟩
  obtain ⟨ref', writes⟩ := handSample_congr law bench l.inorm
  rw [← ref', ← writes]
  exact lamp x l judged runs stages

/-- R46, R47: a record taken reaches its circuit, the write engine, the balance checker, the fault list and what hangs on
it; on a unit the first two alone. -/
theorem judge_leaves {s : State} (law : s.writeLaw = true) {c : Circ} {r : Rec} {rest : List Rec}
    (queue : s.circuits[c].queue = r :: rest) (due : r.due s.now = true) :
    let v := s.verdictOf c r
    let t := s.judge c r
    ∃ f ref w, Applies s c v f ref w ∧
      let u := { s.setC c (s.circuits[c].judged rest ⟨r.kind, meanOf r.sumI r.n, v⟩ f ref) with writes := w }
      t = { u with balance := t.balance, faults := t.faults, warn := t.warn, events := t.events, flags := t.flags } ∧
      (s.isHead = false → t = u) := by
  dsimp only
  rw [judge_eq queue due]
  dsimp only
  generalize s.verdictOf c r = v
  generalize cleanAgainstOn _ v = clean
  obtain ⟨f, ref, w, applies, listed⟩ := applyVerdict_leaves (s := s.setC c { s.circuits[c] with queue := rest }) law c v
  have kept := keepLast_listed listed c r v
  rw [applied_keepLast, setC_own, setC_setC] at kept
  generalize ((s.setC c { s.circuits[c] with queue := rest }).applyVerdict c v).keepLast c r v = u at kept ⊢
  refine ⟨f, ref, w, applies_dequeued law applies, ?_, fun unit => ?_⟩
  · have frame := kept.frame
    unfold ListOnly at frame
    rw [formBalance_frame, frame]
    rfl
  · have same := kept.unit unit
    exact (formBalance_unit (by rw [same]; exact unit) c r clean).trans same

/-- Settles O30: `judge_leaves`, field by field; what the verdict leaves is `Applies`, and noting the change reaches the
link and the telling alone. -/
theorem recordTakenForJudgement : Obligations.RecordTakenForJudgement := by
  intro c r rest s k law queue past
  have due : r.due s.now = true := decide_eq_true past
  obtain ⟨f, ref, w, ⟨thin, filter, noLamp, lamp⟩, frame, unit⟩ := judge_leaves law queue due
  have circuits := congrArg State.circuits frame
  have writes := congrArg State.writes frame
  have told := announce_frame s (s.judge c r)
  have own : (announce s (s.judge c r)).circuits[c] =
      k.judged rest ⟨r.kind, meanOf r.sumI r.n, s.verdictOf c r⟩ f ref := by
    rw [told]
    exact (congrArg (·[c]) circuits).trans (put_same _ _ _)
  refine ⟨_, takenForJudgement_eq queue due, ?_, fun one => ?_, fun d other => ?_, ?_⟩
  · rw [told, frame]
    rfl
  · rw [told, unit one]
    exact ⟨rfl, rfl, rfl, rfl, rfl⟩
  · rw [told]
    exact (congrArg (·[d]) circuits).trans (put_other _ _ other)
  · have engine : (announce s (s.judge c r)).writes = w := by
      rw [told]
      exact writes
    dsimp only
    rw [own, engine]
    exact ⟨rfl, thin, fun x judged runs =>
      ⟨filter x judged runs, noLamp x judged runs, fun l => lamp x l judged runs⟩⟩

end Sys2Proof.Machine
end

section
/-! SUPPORT. The front of the queue, the severities (R79) and the lamp bands (R72, R73). -/

namespace Sys2Proof.Machine

/-! ## The queue -/

/-- Settles O1: the step takes the front of the queue apart. -/
theorem stepRunsFrontCommand : Obligations.StepRunsFrontCommand := fun _ _ _ => rfl

/-! ## Severities -/

/-- R79: the functions whose loss weighs more. -/
theorem isUrgent_iff (f : LampFn) : f.isUrgent = true ↔ f = .stop ∨ f = .leftTurn ∨ f = .rightTurn := by
  cases f <;> decide

/-- Settles O12: kind by kind; the urgent functions are those that `isUrgent_iff` lists. -/
theorem severityTable : Obligations.SeverityTable := by
  intro k f
  refine ⟨?_, rfl, rfl, rfl⟩
  simp only [← isUrgent_iff f]
  cases k <;> rfl

/-! ## The lamp bands -/

/-- R72: the raw estimate reaches m where In reaches m − 1/2 lamps' share of R. -/
theorem le_rawEstimate_iff {inorm n r m : Nat} (reference : 1 ≤ r) (lit : 1 ≤ m) :
    m ≤ rawEstimate inorm n r ↔ r * (2 * m - 1) ≤ 2 * n * inorm := by
  have halves : r * (2 * m - 1) + r = m * (2 * r) := by
    obtain ⟨j, rfl⟩ := Nat.exists_eq_add_of_le lit
    rw [show 2 * (1 + j) - 1 = 2 * j + 1 by omega]
    ring
  have order : 2 * n * inorm = 2 * inorm * n := by ring
  unfold rawEstimate
  rw [Nat.le_div_iff_mul_le (by omega), ← halves, order]
  omega

/-- R73: the four tests in their order; where the last one fails the estimate reaches n. -/
theorem classifyLamp_cases (inorm n r : Nat) :
    (3 * r < 2 * inorm ∧ classifyLamp inorm n r = (some .overload, n)) ∨
    (2 * inorm ≤ 3 * r ∧ rawEstimate inorm n r = 0 ∧ classifyLamp inorm n r = (some .lampOut, 0)) ∨
    (2 * inorm ≤ 3 * r ∧ 1 ≤ rawEstimate inorm n r ∧ rawEstimate inorm n r < n ∧
      classifyLamp inorm n r = (some .lampPartial, rawEstimate inorm n r)) ∨
    (2 * inorm ≤ 3 * r ∧ 1 ≤ rawEstimate inorm n r ∧ n ≤ rawEstimate inorm n r ∧
      classifyLamp inorm n r = (none, n)) := by
  unfold classifyLamp
  by_cases tooMuch : 2 * inorm > 3 * r
  · exact .inl ⟨tooMuch, if_pos tooMuch⟩
  · rw [if_neg tooMuch]
    by_cases out : rawEstimate inorm n r = 0
    · exact .inr (.inl ⟨by omega, out, if_pos out⟩)
    · rw [if_neg out]
      by_cases part : rawEstimate inorm n r < n
      · exact .inr (.inr (.inl ⟨by omega, by omega, part, if_pos part⟩))
      · exact .inr (.inr (.inr ⟨by omega, by omega, by omega, if_neg part⟩))

/-- Settles O9: each band of In says which estimates it holds (`le_rawEstimate_iff`), and the estimate tells the four
tests apart. -/
theorem lampVerdictBands : Obligations.LampVerdictBands := by
  intro inorm n r lamps reference
  have reach {m : Nat} (lit : 1 ≤ m) := le_rawEstimate_iff (inorm := inorm) (n := n) reference lit
  have out : 2 * n * inorm < r ↔ rawEstimate inorm n r = 0 := by
    have one := reach (Nat.le_refl 1)
    omega
  have part (m : Nat) : 1 ≤ m ∧ m < n ∧ r * (2 * m - 1) ≤ 2 * n * inorm ∧ 2 * n * inorm < r * (2 * m + 1) ↔
      1 ≤ m ∧ m < n ∧ rawEstimate inorm n r = m := by
    refine and_congr_right fun lit => and_congr_right fun _ => ?_
    have next := reach (Nat.le_add_left 1 m)
    rw [show 2 * (m + 1) - 1 = 2 * m + 1 by omega] at next
    rw [← reach lit]
    omega
  rw [← reach lamps, out]
  simp only [part]
  rcases classifyLamp_cases inorm n r with ⟨tooMuch, e⟩ | ⟨within, zero, e⟩ | ⟨within, lit, few, e⟩ |
    ⟨within, lit, all, e⟩ <;> rw [e]
  · simp [tooMuch, Nat.not_le.2 tooMuch]
  · simp [within, Nat.not_lt.2 within, zero]
    grind
  · simp [within, Nat.not_lt.2 within]
    grind
  · simp [within, Nat.not_lt.2 within, all]
    grind

end Sys2Proof.Machine
end

section
/-! SUPPORT. Where a supply loss is placed (R75, R160 to R162): the nearest slot ahead that is not passed over. -/

namespace Sys2Proof.Machine

theorem isTurn_iff (f : LampFn) : f.isTurn = true ↔ f = .leftTurn ∨ f = .rightTurn := by cases f <;> decide

/-- R161: a FEED circuit counts in slot 0 and a lamp circuit in the others. -/
theorem counts_iff (k : CircuitReport) (x : Rank) (f : LampFn) :
    k.counts x f = true ↔ k.fn = f ∧ (x = 0 ∧ k.kind = .feed ∨ x ≠ 0 ∧ (k.kind = .incandescent ∨ k.kind = .led)) := by
  unfold CircuitReport.counts
  by_cases front : x = 0 <;> simp [front, isLamp_iff]

/-- R162: a circuit shows supply by its energized state, and a flashing one by its mean. -/
theorem showsSupply_iff (k : CircuitReport) (f : LampFn) :
    k.showsSupply f = true ↔ k.energized = true ∨ (f = .leftTurn ∨ f = .rightTurn) ∧ 0 < k.mean := by
  simp [CircuitReport.showsSupply, isTurn_iff]

/-- R161: a slot is passed over unless a FRESH entry has a circuit that counts. -/
theorem decides_iff (s : State) (f : LampFn) (x : Rank) :
    s.decides f x = true ↔
      ∃ e, s.roster.slots[x] = some e ∧ e.aged = false ∧ ∃ c : Circ, e.report.circuits[c].counts x f = true := by
  unfold State.decides
  cases s.roster.slots[x] with
  | none => simp
  | some e => simp [RosterEntry.isFresh, mem_allCirc]

theorem mem_ahead (r x : Rank) : x ∈ ahead r ↔ x < r := by simp [ahead, mem_allCirc]

/-- R161: the slots ahead come nearest first. -/
theorem ahead_descends (r : Rank) : (ahead r).Pairwise (· > ·) := by
  have rises : allCirc.Pairwise (· < ·) := by decide
  exact List.pairwise_reverse.2 (rises.filter _)

/-- R161: the nearest slot ahead of which a condition holds. -/
theorem find_ahead {p : Rank → Bool} {r x : Rank} (before : x < r) (holds : p x = true)
    (nearest : ∀ y, x < y → y < r → ¬ p y = true) : (ahead r).find? p = some x := by
  obtain ⟨nearer, further, e⟩ := List.append_of_mem ((mem_ahead r x).2 before)
  have descends := ahead_descends r
  rw [e, List.pairwise_append] at descends
  refine List.find?_eq_some_iff_append.2 ⟨holds, nearer, further, e, fun y near => ?_⟩
  have behind : y < r := (mem_ahead r y).1 (by rw [e]; exact List.mem_append_left _ near)
  simpa using nearest y (descends.2.2 y near x List.mem_cons_self) behind

/-- R162: the entry of a slot that decides. -/
theorem decideAt_entry {s : State} {x : Rank} {e : RosterEntry} (slot : s.roster.slots[x] = some e) (f : LampFn) :
    s.decideAt f x =
      if ∃ c : Circ, e.report.circuits[c].counts x f = true ∧ e.report.circuits[c].showsSupply f = true then
        (.coupling, some x.val)
      else (.shadowed, none) := by
  unfold State.decideAt
  rw [slot]
  simp [mem_allCirc]

/-- Settles O32: on a unit the rank is looked at first, then the nearest slot ahead that decides (`find_ahead`), and
what its entry says (`decideAt_entry`). -/
theorem supplyLossIsAttributed : Obligations.SupplyLossIsAttributed := by
  intro f s
  simp only [← counts_iff, ← showsSupply_iff, ← decides_iff]
  refine ⟨fun head => if_pos head, fun unit noRank => ?_, fun r unit ranked passed => ?_,
    fun r x e unit ranked before decides nearest slot => ?_⟩
  · have rank : s.rank.state.rank? = none := by
      cases state : s.rank.state with
      | ranked r => exact absurd state (noRank r)
      | acquiring => rfl
      | unranked cause => rfl
    show (if s.isHead = true then _ else _) = _
    simp [unit, rank]
  · have rank : s.rank.state.rank? = some r := by rw [ranked]; rfl
    have nobody : (ahead r).find? (s.decides f) = none :=
      List.find?_eq_none.2 fun x ahead => passed x ((mem_ahead r x).1 ahead)
    show (if s.isHead = true then _ else _) = _
    simp [unit, rank, nobody]
  · have rank : s.rank.state.rank? = some r := by rw [ranked]; rfl
    have answer := decideAt_entry slot f
    show (_ → (if s.isHead = true then _ else _) = _) ∧ (_ → (if s.isHead = true then _ else _) = _)
    simp only [unit, rank, find_ahead before decides nearest]
    exact ⟨fun shown => answer.trans (if_pos shown),
      fun dark => answer.trans (if_neg fun ⟨c, counts, shows⟩ => dark c counts shows)⟩

end Sys2Proof.Machine
end

section
/-! SUPPORT. The verdict of a record by load kind, expected state and record kind (R64 to R73, R75 to R78). -/

namespace Sys2Proof.Machine

/-! ## What a record shows -/

theorem litThroughout_iff (r : Rec) : r.litThroughout = true ↔ r.initial = true ∧ r.edges = 0 := by
  simp [Rec.litThroughout]

theorem darkThroughout_iff (r : Rec) : r.darkThroughout = true ↔ r.initial = false ∧ r.edges = 0 := by
  simp [Rec.darkThroughout]

theorem dark_unlit {r : Rec} (dark : r.darkThroughout = true) : r.litThroughout = false := by
  obtain ⟨initial, -⟩ := (darkThroughout_iff r).1 dark
  simp [Rec.litThroughout, initial]

/-- R64: a window with an edge is neither. -/
theorem edges_unlit {r : Rec} (edges : r.edges ≠ 0) : r.litThroughout = false ∧ r.darkThroughout = false := by
  simp [Rec.litThroughout, Rec.darkThroughout, edges]

/-- R22: too few samples or too little voltage for the stages. -/
def Rec.thinForLamps (r : Rec) : Prop := tooFew r.kind r.n = true ∨ meanOf r.sumV r.n < 18000

theorem thinForLamps_iff (r : Rec) :
    (tooFew r.kind r.n || decide (meanOf r.sumV r.n < 18000)) = true ↔ r.thinForLamps := by simp [Rec.thinForLamps]

theorem thinForLamps_window {r : Rec} (window : r.kind = .window) :
    r.thinForLamps ↔ r.n < 5 ∨ meanOf r.sumV r.n < 18000 := by simp [Rec.thinForLamps, window, tooFew]

theorem thinForLamps_onPhase {r : Rec} (phase : r.kind = .onPhase) :
    r.thinForLamps ↔ r.n < 2 ∨ meanOf r.sumV r.n < 18000 := by simp [Rec.thinForLamps, phase, tooFew]

/-- R66, R77: a window against OFF. -/
theorem offVerdict_dark {r : Rec} (dark : r.darkThroughout = true) : offVerdict r = .plain none := by
  simp [offVerdict, dark]

theorem offVerdict_stray {r : Rec} (dark : ¬ r.darkThroughout = true) : offVerdict r = .plain (some .stray) := by
  simp [offVerdict, dark]

/-! ## The stages -/

/-- R71: the Iref in use, or the nominal reference. -/
theorem reference_eq (k : Circuit) :
    k.reference = (k.ref.iref.getD (k.cfg.n * k.cfg.rating * 10), k.ref.iref.isNone) := by
  unfold Circuit.reference
  cases k.ref.iref <;> rfl

theorem stages_thin {r : Rec} (thin : r.thinForLamps) (k : Circuit) : k.stages r = none :=
  if_pos ((thinForLamps_iff r).2 thin)

/-- R71 to R73: stages 4 to 6 on the normalised current of the record's means. -/
theorem stages_enough {r : Rec} (enough : ¬ r.thinForLamps) (k : Circuit) :
    let ref := k.ref.iref.getD (k.cfg.n * k.cfg.rating * 10)
    let inorm := normalise k.cfg.kind (meanOf r.sumI r.n) (meanOf r.sumV r.n)
    let stage := classifyLamp inorm k.cfg.n ref
    k.stages r = some (stage.1, ⟨inorm, ref, k.ref.iref.isNone, stage.2, k.cfg.n⟩) := by
  unfold Circuit.stages
  rw [if_neg (mt (thinForLamps_iff r).1 enough), reference_eq]

/-- R68: an ON-phase record too thin for the stages has its findings alone. -/
theorem flashVerdict_thin {k : Circuit} {r : Rec} (thin : k.stages r = none) :
    (r.findings = .none → k.flashVerdict r = none) ∧
      (r.findings ≠ .none →
        k.flashVerdict r = some { Verdict.plain (some .cadence) with findings := r.findings }) := by
  unfold Circuit.flashVerdict
  rw [thin]
  exact ⟨fun clean => if_pos clean, fun found => if_neg found⟩

/-- R67, R68: the stages come before the findings. -/
theorem flashVerdict_staged {k : Circuit} {r : Rec} {fault : Option FaultKind} {st : LampStages}
    (stages : k.stages r = some (fault, st)) :
    (fault ≠ none ∨ r.findings = .none → k.flashVerdict r = some (.staged (fault, st))) ∧
      (fault = none → r.findings ≠ .none →
        k.flashVerdict r = some { Verdict.staged (some .cadence, st) with findings := r.findings }) := by
  unfold Circuit.flashVerdict
  rw [stages]
  cases fault with
  | none => exact ⟨fun clean => if_pos (clean.resolve_left fun no => no rfl), fun _ found => if_neg found⟩
  | some kind => exact ⟨fun _ => rfl, nofun⟩

/-! ## The load kinds -/

theorem verdict_lamp {k : Circuit} (lamp : k.cfg.kind.isLamp = true) (s : State) (r : Rec) (x : FnState) :
    s.verdict k r x = s.lampVerdict k r x := by
  unfold State.verdict
  rcases (isLamp_iff _).1 lamp with kind | kind <;> rw [kind]

theorem verdict_feed {k : Circuit} (feed : k.cfg.kind = .feed) (s : State) (r : Rec) (x : FnState) :
    s.verdict k r x = s.feedVerdict k r x := by
  unfold State.verdict
  rw [feed]

theorem verdict_notFitted {k : Circuit} (unfitted : k.cfg.kind = .notFitted) (s : State) (r : Rec) (x : FnState) :
    s.verdict k r x = none := by
  unfold State.verdict
  rw [unfitted]

/-- R62: a record of a fitted circuit is judged as a lamp's or as a feed's. -/
theorem verdict_fitted {k : Circuit} (fitted : k.cfg.kind ≠ .notFitted) (s : State) (r : Rec) (x : FnState) :
    s.verdict k r x = s.lampVerdict k r x ∨ s.verdict k r x = s.feedVerdict k r x := by
  cases kind : k.cfg.kind with
  | notFitted => exact absurd kind fitted
  | incandescent => exact .inl (verdict_lamp (by rw [kind]; rfl) s r x)
  | led => exact .inl (verdict_lamp (by rw [kind]; rfl) s r x)
  | feed => exact .inr (verdict_feed kind s r x)

/-- What the verdict of a lamp's and of a feed's record have in common is the verdict of every fitted circuit's. -/
theorem verdict_common {k : Circuit} (fitted : k.cfg.kind ≠ .notFitted) {s : State} {r : Rec} {x : FnState}
    {v : Option Verdict} (lamp : s.lampVerdict k r x = v) (feed : s.feedVerdict k r x = v) : s.verdict k r x = v := by
  rcases verdict_fitted fitted s r x with e | e <;> rw [e]
  · exact lamp
  · exact feed

/-- What neither a lamp's nor a feed's record is judged by gives no circuit a verdict. -/
theorem verdict_never {s : State} {k : Circuit} {r : Rec} {x : FnState} (lamp : s.lampVerdict k r x = none)
    (feed : s.feedVerdict k r x = none) : s.verdict k r x = none := by
  by_cases unfitted : k.cfg.kind = .notFitted
  · exact verdict_notFitted unfitted s r x
  · exact verdict_common unfitted lamp feed

/-! ## A window -/

section Window
variable {r : Rec} (window : r.kind = .window) (s : State) (k : Circuit)
include window

theorem verdict_window_flashing : s.verdict k r .flashing = none :=
  verdict_never (by simp [State.lampVerdict, window]) (by simp [State.feedVerdict, window])

theorem verdict_window_off (fitted : k.cfg.kind ≠ .notFitted) : s.verdict k r .off = some (offVerdict r) :=
  verdict_common fitted (by simp [State.lampVerdict, window]) (by simp [State.feedVerdict, window])

/-- R65, R77: dark throughout against ON. -/
theorem verdict_window_dark (fitted : k.cfg.kind ≠ .notFitted) (dark : r.darkThroughout = true) :
    s.verdict k r .on = some (s.noSupply k.cfg.fn) :=
  verdict_common fitted (by simp [State.lampVerdict, window, dark, dark_unlit dark])
    (by simp [State.feedVerdict, window, dark, dark_unlit dark])

/-- R65: a lamp lit throughout against ON is judged by the stages. -/
theorem lampVerdict_window_lit (lit : r.litThroughout = true) :
    s.lampVerdict k r .on = (k.stages r).map .staged := by simp [State.lampVerdict, window, lit]

/-- R65: a lamp's window with edges, against ON. -/
theorem lampVerdict_window_edges (edges : r.edges ≠ 0) :
    s.lampVerdict k r .on = if 2 ≤ r.edges then some (.plain (some .flicker)) else none := by
  obtain ⟨lit, dark⟩ := edges_unlit edges
  simp [State.lampVerdict, window, lit, dark]

/-- R77: a feed lit throughout against ON is clean, where its window is not thin. -/
theorem feedVerdict_window_lit (lit : r.litThroughout = true) :
    (r.thinForLamps → s.feedVerdict k r .on = none) ∧
      (¬ r.thinForLamps → s.feedVerdict k r .on = some (.plain none)) := by
  simp only [← thinForLamps_iff]
  simp +contextual [State.feedVerdict, window, lit]

theorem feedVerdict_window_mixed (lit : ¬ r.litThroughout = true) (dark : ¬ r.darkThroughout = true) :
    s.feedVerdict k r .on = none := by simp [State.feedVerdict, window, lit, dark]

end Window

/-! ## An ON-phase record and a missed flash -/

section Phase
variable {r : Rec} (phase : r.kind = .onPhase) (s : State) (k : Circuit)
include phase

theorem verdict_onPhase_on : s.verdict k r .on = none :=
  verdict_never (by simp [State.lampVerdict, phase]) (by simp [State.feedVerdict, phase])

/-- R66, R77: lit against OFF. -/
theorem verdict_onPhase_off (fitted : k.cfg.kind ≠ .notFitted) :
    s.verdict k r .off = some (.plain (some .stray)) :=
  verdict_common fitted (by simp [State.lampVerdict, phase]) (by simp [State.feedVerdict, phase])

theorem lampVerdict_onPhase_flashing : s.lampVerdict k r .flashing = k.flashVerdict r := by
  simp [State.lampVerdict, phase]

/-- R77: a feed's ON phase against FLASHING is judged by its findings alone. -/
theorem feedVerdict_onPhase_flashing :
    (r.findings = .none → s.feedVerdict k r .flashing = some (.plain none)) ∧
      (r.findings ≠ .none → s.feedVerdict k r .flashing =
        some { Verdict.plain (some .cadence) with findings := r.findings }) := by
  simp +contextual [State.feedVerdict, phase]

end Phase

section Missed
variable {r : Rec} (missed : r.kind = .missedFlash) (s : State) (k : Circuit)
include missed

theorem verdict_missed_steady : s.verdict k r .on = none ∧ s.verdict k r .off = none :=
  ⟨verdict_never (by simp [State.lampVerdict, missed]) (by simp [State.feedVerdict, missed]),
    verdict_never (by simp [State.lampVerdict, missed]) (by simp [State.feedVerdict, missed])⟩

/-- R69, R77: a flash that did not come. -/
theorem verdict_missed_flashing (fitted : k.cfg.kind ≠ .notFitted) :
    s.verdict k r .flashing = some (s.noSupply k.cfg.fn) :=
  verdict_common fitted (by simp [State.lampVerdict, missed]) (by simp [State.feedVerdict, missed])

end Missed

/-! ## Every record -/

/-- Settles O31: one law for each line of the statement, by record kind, then expected state, then load kind. -/
theorem verdictOfEveryRecord : Obligations.VerdictOfEveryRecord := by
  intro k r s im vm lit dark ref inorm stage stages findings plain noSupply lamp found
  have isLamp : lamp → k.cfg.kind.isLamp = true := (isLamp_iff _).2
  have litIff : r.litThroughout = true ↔ lit := litThroughout_iff r
  have darkIff : r.darkThroughout = true ↔ dark := darkThroughout_iff r
  have sameFindings : r.findings = findings := by
    unfold Rec.findings findings
    cases r.note <;> rfl
  have enough : ¬ r.thinForLamps → k.stages r = some (stage.1, stages) := fun h => stages_enough h k
  refine ⟨fun unfitted x => verdict_notFitted unfitted s r x, fun window => ?_, fun phase => ?_, fun missed => ?_⟩
  · have thinIff : r.thinForLamps ↔ r.n < 5 ∨ vm < 18000 := thinForLamps_window window
    have thick (many : 5 ≤ r.n) (volts : 18000 ≤ vm) : ¬ r.thinForLamps := by rw [thinIff]; omega
    refine ⟨verdict_window_flashing window s k, fun fitted isDark => ⟨?_, ?_⟩, fun fitted notDark => ?_,
      fun feed notLit notDark => ?_, fun l one => ?_, fun l more => ?_, fun isLit thin => ?_,
      fun feed isLit many volts => ?_, fun l isLit many volts => ?_⟩
    · rw [verdict_window_off window s k fitted, offVerdict_dark (darkIff.2 isDark)]
      rfl
    · exact verdict_window_dark window s k fitted (darkIff.2 isDark)
    · rw [verdict_window_off window s k fitted, offVerdict_stray (mt darkIff.1 notDark)]
      rfl
    · rw [verdict_feed feed]
      exact feedVerdict_window_mixed window s k (mt litIff.1 notLit) (mt darkIff.1 notDark)
    · rw [verdict_lamp (isLamp l), lampVerdict_window_edges window s k (by omega)]
      exact if_neg (by omega)
    · rw [verdict_lamp (isLamp l), lampVerdict_window_edges window s k (by omega)]
      exact if_pos more
    · refine verdict_never ?_ ((feedVerdict_window_lit window s k (litIff.2 isLit)).1 (thinIff.2 thin))
      rw [lampVerdict_window_lit window s k (litIff.2 isLit), stages_thin (thinIff.2 thin)]
      rfl
    · rw [verdict_feed feed]
      exact (feedVerdict_window_lit window s k (litIff.2 isLit)).2 (thick many volts)
    · rw [verdict_lamp (isLamp l), lampVerdict_window_lit window s k (litIff.2 isLit), enough (thick many volts)]
      rfl
  · have thinIff : r.thinForLamps ↔ r.n < 2 ∨ vm < 18000 := thinForLamps_onPhase phase
    have thick (many : 2 ≤ r.n) (volts : 18000 ≤ vm) : ¬ r.thinForLamps := by rw [thinIff]; omega
    have foundIff : found ↔ r.findings ≠ .none := by rw [sameFindings]; rfl
    have flash (l : lamp) : s.verdict k r .flashing = k.flashVerdict r :=
      (verdict_lamp (isLamp l) s r _).trans (lampVerdict_onPhase_flashing phase s k)
    rw [← sameFindings]
    refine ⟨verdict_onPhase_on phase s k, verdict_onPhase_off phase s k, fun feed clean => ?_, fun feed fault => ?_,
      fun l thin clean => ?_, fun l thin fault => ?_, fun l many volts first => ?_, fun l many volts lit fault => ?_⟩
    · rw [verdict_feed feed]
      exact (feedVerdict_onPhase_flashing phase s k).1 (not_not.1 (mt foundIff.2 clean))
    · rw [verdict_feed feed]
      exact (feedVerdict_onPhase_flashing phase s k).2 (foundIff.1 fault)
    · rw [flash l]
      exact (flashVerdict_thin (stages_thin (thinIff.2 thin) k)).1 (not_not.1 (mt foundIff.2 clean))
    · rw [flash l]
      exact (flashVerdict_thin (stages_thin (thinIff.2 thin) k)).2 (foundIff.1 fault)
    · rw [flash l]
      exact (flashVerdict_staged (enough (thick many volts))).1
        (first.imp_right fun clean => not_not.1 (mt foundIff.2 clean))
    · rw [flash l]
      exact (flashVerdict_staged (enough (thick many volts))).2 lit (foundIff.1 fault)
  · obtain ⟨on, off⟩ := verdict_missed_steady missed s k
    exact ⟨on, off, verdict_missed_flashing missed s k⟩

end Sys2Proof.Machine
end

section
/-! SUPPORT. A balance record (R167 to R170): the reasons that make it thin, in the roster's own terms, and its sum. -/

namespace Sys2Proof.Machine

/-! ## The peers -/

theorem any_peers (r : Roster) (p : RosterEntry → Bool) :
    r.peers.any p = true ↔ ∃ (x : Rank) (e : RosterEntry), x ≠ 0 ∧ r.slots[x] = some e ∧ p e = true := by
  simp only [Roster.peers, List.any_eq_true, List.mem_filterMap, List.mem_filter, mem_allCirc, true_and, bne_iff_ne]
  constructor
  · rintro ⟨e, ⟨x, peer, slot⟩, holds⟩
    exact ⟨x, e, peer, slot, holds⟩
  · rintro ⟨x, e, peer, slot, holds⟩
    exact ⟨e, ⟨x, peer, slot⟩, holds⟩

/-- R168: some entry in a peer's slot is STALE. -/
theorem stalePeer_iff (r : Roster) :
    (r.peers.any fun e => !e.isFresh) = true ↔
      ∃ (x : Rank) (e : RosterEntry), x ≠ 0 ∧ r.slots[x] = some e ∧ e.aged = true := by
  rw [any_peers]
  simp [RosterEntry.isFresh]

theorem balances_iff (k : CircuitReport) (f : LampFn) :
    k.balances f = true ↔ k.fn = f ∧ (k.kind = .incandescent ∨ k.kind = .led) := by
  simp [CircuitReport.balances, isLamp_iff]

/-- R168: some peer reports a circuit of the function unjudged. -/
theorem unjudgedPeer_iff (r : Roster) (f : LampFn) :
    (r.peers.any (·.unjudged f)) = true ↔
      ∃ (x : Rank) (e : RosterEntry) (c : Circ), x ≠ 0 ∧ r.slots[x] = some e ∧
        (e.report.circuits[c].fn = f ∧ (e.report.circuits[c].kind = .incandescent ∨ e.report.circuits[c].kind = .led)) ∧
          e.report.circuits[c].judged = false := by
  rw [any_peers]
  simp [RosterEntry.unjudged, mem_allCirc, balances_iff]

/-! ## The sum -/

theorem sum_allCirc (g : Circ → Nat) : (allCirc.map g).sum = ∑ c, g c := (Fin.sum_univ_def g).symm

theorem sum_filterMap {α β : Type} (h : α → Option β) (g : β → Nat) (l : List α) :
    ((l.filterMap h).map g).sum = (l.map fun a => ((h a).map g).getD 0).sum := by
  induction l with
  | nil => rfl
  | cons a l ih => cases e : h a <;> simp [e, ih]

/-- R169: what the circuit c in slot x adds to the sum. -/
def Roster.share (r : Roster) (f : LampFn) (x : Rank) (c : Circ) : Nat :=
  match r.slots[x] with
  | none => 0
  | some e =>
    if x ≠ 0 ∧ e.report.circuits[c].fn = f ∧
        (e.report.circuits[c].kind = .incandescent ∨ e.report.circuits[c].kind = .led) then
      e.report.circuits[c].mean
    else 0

/-- R169: the sum over the peers' circuits is the sum of all shares. -/
theorem rosterCurrent_eq (r : Roster) (f : LampFn) : r.current f = ∑ x : Rank, ∑ c : Circ, r.share f x c := by
  unfold Roster.current Roster.peers
  rw [List.filterMap_filter, sum_filterMap, sum_allCirc]
  refine Finset.sum_congr rfl fun x _ => ?_
  simp only [Roster.share]
  cases r.slots[x] with
  | none => simp
  | some e => by_cases own : x = 0 <;> simp [own, RosterEntry.current, sum_allCirc, balances_iff]

end Sys2Proof.Machine
end

section
/-! SUPPORT. One entry of the fault list (R177, R181 to R185, R193): what a change of its own key and of another makes
of it. -/

namespace Sys2Proof.Machine

/-! ## The entry of a key -/

theorem entryOf_mem {l : FaultList} {k : Key} {e : Entry} (h : l.entryOf k = some e) : e ∈ l.entries ∧ e.key = k :=
  ⟨List.mem_of_find?_eq_some h, by simpa using List.find?_some h⟩

/-- A change in place that keeps the keys reaches the entry of a key where it stands. -/
theorem mapEntries_entryOf (s : State) {g : Entry → Entry} (keys : ∀ e, (g e).key = e.key) (k : Key) :
    (s.mapEntries g).faults.entryOf k = (s.faults.entryOf k).map g := by
  show List.find? _ (List.map g s.faults.entries) = _
  rw [List.find?_map]
  have same : (fun e : Entry => e.key == k) ∘ g = fun e => e.key == k := funext fun e => by simp [keys]
  rw [same]
  rfl

theorem mapEntry_entryOf (s : State) (j : Key) {g : Entry → Entry} (keys : ∀ e, (g e).key = e.key) (k : Key) :
    (s.mapEntry j g).faults.entryOf k = if k = j then (s.faults.entryOf k).map g else s.faults.entryOf k := by
  have guarded (e : Entry) : (if e.key = j then g e else e).key = e.key := by split <;> simp [keys]
  refine (mapEntries_entryOf s guarded k).trans ?_
  cases h : s.faults.entryOf k with
  | none => simp
  | some e =>
    obtain ⟨-, key⟩ := entryOf_mem h
    by_cases own : k = j <;> simp [key, own]

/-- R182: a change of detail reaches the entry of its key, where that is not CLEARED. -/
theorem detail_entryOf (s : State) (j : Key) (g : Details → Details) (k : Key) :
    (s.detail j g).faults.entryOf k =
      if k = j then (s.faults.entryOf k).map fun e => if e.state.stands then { e with details := g e.details } else e
      else s.faults.entryOf k :=
  mapEntry_entryOf s j (fun e => by split <;> rfl) k

/-- R193, R195: what settles an input changes an entry in its extent alone. -/
theorem settleList_entryOf (s : State) (k : Key) :
    s.settleList.faults.entryOf k = (s.faults.entryOf k).map fun e => { e with extent := s.extentOf e } := by
  have settled : s.settleList.faults = s.extents.faults := by
    unfold State.settleList
    rcases deriveWarn_cases s.extents with ⟨_, e⟩ | ⟨_, e⟩ <;> rw [e]
  rw [settled]
  exact mapEntries_entryOf s (g := fun e => { e with extent := s.extentOf e }) (fun _ => rfl) k

theorem settleList_length (s : State) : s.settleList.faults.entries.length = s.faults.entries.length := by
  unfold State.settleList
  rcases deriveWarn_cases s.extents with ⟨_, e⟩ | ⟨_, e⟩ <;> rw [e] <;> exact List.length_map _

/-- R194: what leaves the list has the key of the clear. -/
theorem sweep_entryOf_other (s : State) {j k : Key} (other : k ≠ j) :
    (s.sweep j).faults.entryOf k = s.faults.entryOf k := by
  show List.find? _ (List.filter _ s.faults.entries) = _
  rw [List.find?_filter]
  refine congrArg (fun p => List.find? p s.faults.entries) (funext fun e => ?_)
  by_cases key : e.key = k <;> simp [key, other]

/-- R182: a clear leaves the entries of other keys. -/
theorem clear_entryOf_other (s : State) {j k : Key} (other : k ≠ j) :
    (s.clear j).faults.entryOf k = s.faults.entryOf k := by
  rcases clear_cases s j with ⟨_, e⟩ | ⟨_, _, _, e⟩ <;> rw [e]
  rw [sweep_entryOf_other _ other, raise_faults]
  exact (mapEntry_entryOf s j (g := fun e => { e with state := .cleared, extent := 0 }) (fun _ => rfl) k).trans
    (if_neg other)

theorem clear_length (s : State) (k : Key) : (s.clear k).faults.entries.length ≤ s.faults.entries.length := by
  rcases clear_cases s k with ⟨_, e⟩ | ⟨_, _, _, e⟩ <;> rw [e]
  refine List.length_filter_le _ _ |>.trans ?_
  rw [raise_faults]
  exact (List.length_map _).le

/-- R182: after a clear its key has a CLEARED entry or none. -/
theorem clear_entryOf (s : State) (k : Key) : (s.clear k).faults.entryOf k |>.all fun e => e.state == .cleared := by
  rcases clear_cases s k with ⟨cleared, e⟩ | ⟨_, _, _, e⟩ <;> rw [e]
  · exact cleared
  · rw [Option.all_eq_true]
    intro x found
    obtain ⟨stays, key⟩ := entryOf_mem found
    have listed := List.mem_of_mem_filter stays
    rw [raise_faults] at listed
    obtain ⟨y, -, rfl⟩ := List.mem_map.1 listed
    by_cases own : y.key = k
    · simp [own]
    · simp [own] at key

/-- R178, R181, R183: the first confirmation of a key, where the list has room, makes its entry. -/
theorem confirm_entryOf_new {s : State} {k : Key} (fresh : s.faults.entryOf k = none)
    (room : s.faults.entries.length < 32) (d : Details) (claim : Option Rank) :
    (s.confirm k d claim).faults.entryOf k = some (s.newEntry k d claim) := by
  have made : s.confirm k d claim = s.append s.faults.entries (s.newEntry k d claim) := by
    unfold State.confirm State.makeEntry
    rw [fresh]
    exact if_pos room
  have missing : s.faults.entries.find? (·.key == k) = none := fresh
  rw [made, append_faults]
  simp [FaultList.entryOf, missing, State.newEntry]

/-! ## An entry spared -/

/-- R193: from s to t the entry of key k keeps all but its extent, and the list does not grow. -/
structure Spares (k : Key) (s t : State) : Prop where
  entry : ((t.faults.entryOf k).map fun e => { e with extent := 0 }) =
    (s.faults.entryOf k).map fun e => { e with extent := 0 }
  length : t.faults.entries.length ≤ s.faults.entries.length

theorem Spares.of_faults {k : Key} {s t : State} (same : t.faults = s.faults) : Spares k s t :=
  ⟨by rw [same], by rw [same]⟩

theorem Spares.trans {k : Key} {s t u : State} (h : Spares k s t) (g : Spares k t u) : Spares k s u :=
  ⟨g.entry.trans h.entry, g.length.trans h.length⟩

theorem Spares.fresh {k : Key} {s t : State} (h : Spares k s t) (fresh : s.faults.entryOf k = none) :
    t.faults.entryOf k = none := by
  have entry := h.entry
  rw [fresh] at entry
  simpa using entry

theorem Spares.found {k : Key} {s t : State} (h : Spares k s t) {e : Entry} (found : s.faults.entryOf k = some e) :
    ∃ x, t.faults.entryOf k = some { e with extent := x } := by
  have entry := h.entry
  rw [found] at entry
  obtain ⟨y, listed, same⟩ := Option.map_eq_some_iff.1 entry
  refine ⟨y.extent, listed.trans ?_⟩
  cases y
  cases e
  simp_all

theorem settleList_spares (k : Key) (s : State) : Spares k s s.settleList where
  entry := by
    rw [settleList_entryOf, Option.map_map]
    rfl
  length := (settleList_length s).le

theorem clear_spares {j k : Key} (other : k ≠ j) (s : State) : Spares k s (s.clear j) where
  entry := by rw [clear_entryOf_other s other]
  length := clear_length s j

theorem detail_spares {j k : Key} (other : k ≠ j) (s : State) (g : Details → Details) : Spares k s (s.detail j g) where
  entry := by rw [detail_entryOf, if_neg other]
  length := (List.length_map _).le

/-- R177: LEAKAGE stands under a key without a circuit, which no outcome of a circuit's filter has. -/
theorem leakageKey_ne_circuitKey (n : Serial) (f g : LampFn) (k : FaultKind) (c : Circ) :
    leakageKey n f ≠ circuitKey n k c g := by
  unfold circuitKey leakageKey
  split
  next supply => simp [supply]
  next => simp

/-- R184: a CLEARED of one of the head's circuits spares the entry LEAKAGE. -/
theorem headCleared_spares {s t : State} (faults : t.faults = s.faults) (cfg : t.cfg = s.cfg) (f : LampFn) (c : Circ)
    (k : FaultKind) : Spares (leakageKey s.cfg.serial f) s (State.headOutcome c t (.cleared k)) := by
  refine (Spares.of_faults faults).trans (Spares.trans ?_ (settleList_spares _ _))
  rw [← cfg]
  have other := leakageKey_ne_circuitKey t.cfg.serial f t.circuits[c].cfg.fn k c
  show Spares _ t (t.headCleared c k)
  unfold State.headCleared
  dsimp only
  split
  · split
    · exact (detail_spares other t _).trans (clear_spares other _)
    · exact detail_spares other t _
  · exact clear_spares other t

/-! ## The outcomes of a balance filter -/

theorem balanceOutcome_cleared (f : LampFn) (sign : Option Sign) (s : State) (k : FaultKind) :
    ((State.balanceOutcome f sign s (.cleared k)).faults.entryOf (leakageKey s.cfg.serial f)).all
      (fun e => e.state == .cleared) = true := by
  show ((s.clear (leakageKey s.cfg.serial f)).settleList.faults.entryOf _).all _ = true
  rw [settleList_entryOf, Option.all_map]
  exact clear_entryOf s _

/-- R178, R185: a LEAKAGE confirmed for the first time. -/
theorem balanceOutcome_confirmed (f : LampFn) (sign : Option Sign) {s : State} (k : FaultKind)
    (fresh : s.faults.entryOf (leakageKey s.cfg.serial f) = none) (room : s.faults.entries.length < 32) :
    ((State.balanceOutcome f sign s (.confirmed k)).faults.entryOf (leakageKey s.cfg.serial f)).map
        (fun e => (e.state, e.severity, e.details.sign, e.occurrences, e.rankConf)) =
      some (.active, .major, sign, 1, some 0) := by
  show ((s.confirm (leakageKey s.cfg.serial f) _ none).settleList.faults.entryOf _).map _ = _
  rw [settleList_entryOf, confirm_entryOf_new fresh room]
  simp [State.newEntry, State.ranksFor, leakageKey, severityOf]

/-- R182, R185: a LEAKAGE whose sign changed. -/
theorem balanceOutcome_detailsChanged (f : LampFn) (sign : Option Sign) {s : State} (k : FaultKind) {e : Entry}
    (found : s.faults.entryOf (leakageKey s.cfg.serial f) = some e) (active : e.state = .active) :
    ((State.balanceOutcome f sign s (.detailsChanged k)).faults.entryOf (leakageKey s.cfg.serial f)).map
      (fun e => (e.state, e.details.sign)) = some (.active, sign) := by
  show ((s.detail (leakageKey s.cfg.serial f) _).settleList.faults.entryOf _).map _ = _
  rw [settleList_entryOf, detail_entryOf, if_pos rfl, found]
  simp [active, EntryState.stands]

end Sys2Proof.Machine
end

section
/-! SUPPORT. A feed window taken for judgement on the head: its verdict (R77), the balance record it forms (R167 to
R171), and what the balance filter makes of the entry LEAKAGE (R84, R89, R185). -/

namespace Sys2Proof.Machine

/-! ## The verdict of a feed -/

/-- R77: no verdict of a feed carries lamp stages. -/
theorem feedVerdict_noLamp {s : State} {k : Circuit} {r : Rec} {x : FnState} {v : Verdict}
    (judged : s.feedVerdict k r x = some v) : v.lamp = none := by
  unfold State.feedVerdict at judged
  have plain {kind : Option FaultKind} (h : some (Verdict.plain kind) = some v) : v.lamp = none := by
    cases h
    rfl
  have supply (h : some (s.noSupply k.cfg.fn) = some v) : v.lamp = none := by
    cases h
    rfl
  split at judged
  case h_1 =>
    split at judged
    · split at judged
      · cases judged
      · exact plain judged
    · split at judged
      · exact supply judged
      · cases judged
  case h_2 => exact plain judged
  case h_3 => exact plain judged
  case h_4 =>
    split at judged
    · exact plain judged
    · cases judged
      rfl
  case h_5 => exact supply judged
  all_goals cases judged

theorem verdictOf_feed_noLamp {s : State} {c : Circ} (feed : s.circuits[c].cfg.kind = .feed) (r : Rec) (v : Verdict)
    (judged : s.verdictOf c r = some v) : v.lamp = none := by
  obtain ⟨x, -, judged⟩ := Option.bind_eq_some_iff.1 judged
  rw [verdict_feed feed] at judged
  exact feedVerdict_noLamp judged

/-- R77: a feed's window is judged against ON as clean where it is lit throughout and not thin, and only there. -/
theorem feedVerdict_on_clean {r : Rec} (window : r.kind = .window) (s : State) (k : Circuit) :
    (s.feedVerdict k r .on = some (.plain none) ↔ r.litThroughout = true ∧ ¬ r.thinForLamps) ∧
      ((s.feedVerdict k r .on).map Verdict.kind = some none ↔ r.litThroughout = true ∧ ¬ r.thinForLamps) := by
  by_cases lit : r.litThroughout = true
  · by_cases thin : r.thinForLamps
    · simp [(feedVerdict_window_lit window s k lit).1 thin, thin]
    · simp [(feedVerdict_window_lit window s k lit).2 thin, thin, lit, Verdict.plain]
  · by_cases dark : r.darkThroughout = true
    · simp [State.feedVerdict, window, lit, dark, State.noSupply, Verdict.plain]
    · simp [feedVerdict_window_mixed window s k lit dark, lit]

/-- R78, R168: whether a record of circuit c is judged clean against ON. -/
def State.cleanOn (s : State) (c : Circ) (r : Rec) : Bool :=
  cleanAgainstOn (settled s.ring s.circuits[c].cfg.fn r.start r.finish) (s.verdictOf c r)

/-- R77, R168: when a feed's window is. -/
theorem cleanOn_feed {s : State} {c : Circ} {r : Rec} (feed : s.circuits[c].cfg.kind = .feed)
    (window : r.kind = .window) :
    s.cleanOn c r = true ↔
      settled s.ring s.circuits[c].cfg.fn r.start r.finish = some .on ∧ r.litThroughout = true ∧ ¬ r.thinForLamps := by
  unfold State.cleanOn State.verdictOf cleanAgainstOn
  by_cases on : settled s.ring s.circuits[c].cfg.fn r.start r.finish = some .on
  · rw [on, Option.bind_some, verdict_feed feed]
    simpa using (feedVerdict_on_clean window s s.circuits[c]).2
  · rw [Bool.and_eq_true, beq_iff_eq]
    exact iff_of_false (fun h => on h.1) fun h => on h.1

/-- A clean verdict of a feed says nothing more. -/
theorem verdictOf_feed_clean {s : State} {c : Circ} {r : Rec} (feed : s.circuits[c].cfg.kind = .feed)
    (window : r.kind = .window) (clean : s.cleanOn c r = true) : s.verdictOf c r = some (.plain none) := by
  obtain ⟨on, lit, enough⟩ := (cleanOn_feed feed window).1 clean
  unfold State.verdictOf
  rw [on, Option.bind_some, verdict_feed feed]
  exact (feedVerdict_on_clean window s s.circuits[c]).1.2 ⟨lit, enough⟩

/-! ## The verdict applied and kept -/

/-- R46, R47, R74: the station between the verdict of a record kept and the balance record looked for. -/
def State.recorded (s : State) (c : Circ) (r : Rec) (rest : List Rec) : State :=
  ((s.setC c { s.circuits[c] with queue := rest }).applyVerdict c (s.verdictOf c r)).keepLast c r (s.verdictOf c r)

/-- R60, R74: a verdict without a lamp sample reaches the filter and, on the head, the fault list. -/
theorem applyVerdict_noLamp_leaves {v : Option Verdict} (noLamp : ∀ x, v = some x → x.lamp = none) (s : State)
    (c : Circ) :
    ∃ f, Listed (s.applied c f s.circuits[c].ref s.writes) (s.applyVerdict c v) := by
  by_cases thin : v = none ∨ s.coasting = true
  · refine ⟨s.circuits[c].filter, ?_⟩
    rw [applied_same, applyVerdict_thin thin]
    exact .refl s
  · obtain ⟨judged, runs⟩ := not_or.1 thin
    obtain ⟨x, rfl⟩ := Option.ne_none_iff_exists'.1 judged
    rw [applyVerdict_noLamp (Bool.eq_false_of_not_eq_true runs) (noLamp x rfl)]
    exact ⟨_, applyFilter_listed s c x⟩

/-- R46, R47: a feed's record leaves its circuit and the fault list with what hangs on it. -/
theorem recorded_feed {s : State} {c : Circ} (feed : s.circuits[c].cfg.kind = .feed) (r : Rec) (rest : List Rec) :
    ∃ f, ListOnly
      (s.setC c (s.circuits[c].judged rest ⟨r.kind, meanOf r.sumI r.n, s.verdictOf c r⟩ f s.circuits[c].ref))
      (s.recorded c r rest) := by
  obtain ⟨f, listed⟩ := applyVerdict_noLamp_leaves (verdictOf_feed_noLamp feed r)
    (s.setC c { s.circuits[c] with queue := rest }) c
  have kept := (keepLast_listed listed c r (s.verdictOf c r)).frame
  rw [applied_keepLast, setC_own, setC_setC] at kept
  exact ⟨f, kept⟩

/-- R85: a clean verdict hands on one CLEARED or nothing. -/
theorem take_clean_outcomes (f : Filter) {e : Evidence} (clean : e.kind = none) :
    (f.take e).2 = [] ∨ ∃ k, (f.take e).2 = [.cleared k] := by
  unfold Filter.take Filter.takeClean
  rw [clean]
  cases f.confirmed with
  | none => exact .inl rfl
  | some k =>
    dsimp only
    split
    · exact .inr ⟨k, rfl⟩
    · exact .inl rfl

/-- R85: the fifth clean verdict in a row clears. -/
theorem take_fifthClean {f : Filter} {k : FaultKind} (confirmed : f.confirmed = some k) (fifth : f.clear = 4)
    {e : Evidence} (clean : e.kind = none) : f.take e = (.start f.n, [.cleared k]) := by
  simp [Filter.take, Filter.takeClean, Filter.release, clean, confirmed, fifth]

/-- R87: the third verdict in a row of a kind confirms it. -/
theorem take_third {f : Filter} {k : FaultKind} (unconfirmed : f.confirmed = none) (candidate : f.candidate = some k)
    (third : f.confirm = 2) {e : Evidence} (kind : e.kind = some k) : f.take e = (f.hold k e, [.confirmed k]) := by
  simp [Filter.take, Filter.test, kind, unconfirmed, candidate, third]

/-- R86: a verdict of the confirmed kind with another sign changes the details. -/
theorem take_otherSign {f : Filter} {k : FaultKind} (confirmed : f.confirmed = some k) {e : Evidence}
    (kind : e.kind = some k) (turned : f.sign ≠ e.sign) : f.take e = (f.hold k e, [.detailsChanged k]) := by
  simp [Filter.take, Filter.refresh, Filter.hold, kind, confirmed, Ne.symm turned]

/-- R184: a clean verdict of one of the head's circuits spares every entry LEAKAGE of the head. -/
theorem applyFilter_clean_spares (s : State) (c : Circ) {v : Verdict} (clean : v.kind = none) (f : LampFn) :
    Spares (leakageKey s.cfg.serial f) s (s.applyFilter c v) := by
  unfold State.applyFilter
  dsimp only
  split
  · rcases take_clean_outcomes s.circuits[c].filter (e := v.evidence) clean with e | ⟨k, e⟩ <;> rw [e]
    · exact .of_faults rfl
    · exact headCleared_spares (s := s)
        (t := s.setC c { s.circuits[c] with filter := (s.circuits[c].filter.take v.evidence).1 }) rfl rfl f c k
  · exact .of_faults rfl

theorem recorded_clean_spares {s : State} {c : Circ} {r : Rec} (clean : s.verdictOf c r = some (.plain none))
    (rest : List Rec) (f : LampFn) : Spares (leakageKey s.cfg.serial f) s (s.recorded c r rest) := by
  unfold State.recorded
  rw [clean]
  have taken : Spares (leakageKey s.cfg.serial f) s (s.setC c { s.circuits[c] with queue := rest }) := .of_faults rfl
  have last (t : State) (v : Option Verdict) : Spares (leakageKey s.cfg.serial f) t (t.keepLast c r v) := .of_faults rfl
  refine taken.trans (Spares.trans ?_ (last _ _))
  rcases applyVerdict_cases (s.setC c { s.circuits[c] with queue := rest }) c (some (.plain none)) with e |
    ⟨v, judged, -, -, e⟩ | ⟨v, l, judged, -, staged, -⟩
  · rw [e]
    exact .of_faults rfl
  · cases judged
    rw [e]
    exact applyFilter_clean_spares (s.setC c { s.circuits[c] with queue := rest }) c (v := .plain none) rfl f
  · cases judged
    cases staged

/-! ## The balance record kept -/

/-- R171: the balance checker with a record kept and its filter replaced. -/
def Balance.keep (x : Balance) (f : LampFn) (b : BalanceRecord) (g : Filter) : Balance :=
  { x with results := put x.results f.idx (some b), filters := put x.filters f.idx g }

/-- R84, R171, R185: one that is not thin is taken by the balance filter, whose outcomes reach the fault list. -/
theorem keepBalance_taken {b : BalanceRecord} {e : Evidence} (shown : b.result.evidence = some e) (s : State)
    (f : LampFn) :
    let g := s.balance.filters[f.idx].take e
    s.keepBalance f b =
      g.2.foldl (State.balanceOutcome f g.1.sign) { s with balance := s.balance.keep f b g.1 } := by
  unfold State.keepBalance
  rw [shown]
  rfl

theorem keepBalance_balance {b : BalanceRecord} {e : Evidence} (shown : b.result.evidence = some e) (s : State)
    (f : LampFn) :
    (s.keepBalance f b).balance = s.balance.keep f b (s.balance.filters[f.idx].take e).1 := by
  have frame := ListOnly.foldl (balanceOutcome_listOnly f (s.balance.filters[f.idx].take e).1.sign)
    (s.balance.filters[f.idx].take e).2
    { s with balance := s.balance.keep f b (s.balance.filters[f.idx].take e).1 }
  unfold ListOnly at frame
  rw [keepBalance_taken shown, frame]

/-- R171: every balance record is its function's result, and leaves the unlisted deadline. -/
theorem keepBalance_result (s : State) (f : LampFn) (b : BalanceRecord) :
    (s.keepBalance f b).balance.results = put s.balance.results f.idx (some b) ∧
      (s.keepBalance f b).balance.unlistedAt = s.balance.unlistedAt := by
  obtain ⟨res, now⟩ := b
  cases res with
  | thin why => rw [keepBalance_thin]; exact ⟨rfl, rfl⟩
  | clean x => rw [keepBalance_balance rfl]; exact ⟨rfl, rfl⟩
  | leakage sg x => rw [keepBalance_balance rfl]; exact ⟨rfl, rfl⟩

theorem evidence_clean {b : BalanceRecord} {x : BalanceFigures} (clean : b.result = .clean x) :
    b.result.evidence = some ⟨none, none, none, none, none⟩ := by
  rw [clean]
  rfl

theorem evidence_leakage {b : BalanceRecord} {sg : Sign} {x : BalanceFigures} (leaks : b.result = .leakage sg x) :
    b.result.evidence = some ⟨some .leakage, none, none, none, some sg⟩ := by
  rw [leaks]
  rfl

/-- R84: a thin balance record reaches no filter. -/
theorem keepBalance_thin_filters {b : BalanceRecord} {why : ThinReason} (thin : b.result = .thin why) (s : State)
    (f : LampFn) : (s.keepBalance f b).balance.filters = s.balance.filters := by
  obtain ⟨res, now⟩ := b
  cases thin
  rw [keepBalance_thin]

/-- R85, R185: the fifth clean record in a row clears the entry LEAKAGE. -/
theorem keepBalance_clears {s : State} {f : LampFn} {b : BalanceRecord} {x : BalanceFigures}
    (clean : b.result = .clean x) (confirmed : s.balance.filters[f.idx].confirmed = some .leakage)
    (fifth : s.balance.filters[f.idx].clear = 4) :
    ((s.keepBalance f b).faults.entryOf (leakageKey s.cfg.serial f)).all (fun e => e.state == .cleared) = true := by
  rw [keepBalance_taken (evidence_clean clean), take_fifthClean confirmed fifth rfl]
  exact balanceOutcome_cleared f none { s with balance := _ } .leakage

/-- R87, R185: the third LEAKAGE in a row confirms the entry. -/
theorem keepBalance_confirms {s : State} {f : LampFn} {b : BalanceRecord} {sg : Sign} {x : BalanceFigures}
    (leaks : b.result = .leakage sg x) (candidate : s.balance.filters[f.idx].candidate = some .leakage)
    (third : s.balance.filters[f.idx].confirm = 2) (unconfirmed : s.balance.filters[f.idx].confirmed = none)
    (fresh : s.faults.entryOf (leakageKey s.cfg.serial f) = none) (room : s.faults.entries.length < 32) :
    ((s.keepBalance f b).faults.entryOf (leakageKey s.cfg.serial f)).map
        (fun e => (e.state, e.severity, e.details.sign, e.occurrences, e.rankConf)) =
      some (.active, .major, some sg, 1, some 0) := by
  rw [keepBalance_taken (evidence_leakage leaks), take_third unconfirmed candidate third rfl]
  exact balanceOutcome_confirmed f (some sg) .leakage fresh room

/-- R86, R185: a LEAKAGE of the other sign changes the entry's. -/
theorem keepBalance_changes {s : State} {f : LampFn} {b : BalanceRecord} {sg : Sign} {x : BalanceFigures} {e : Entry}
    (leaks : b.result = .leakage sg x) (confirmed : s.balance.filters[f.idx].confirmed = some .leakage)
    (turned : s.balance.filters[f.idx].sign ≠ some sg)
    (found : s.faults.entryOf (leakageKey s.cfg.serial f) = some e) (active : e.state = .active) :
    ((s.keepBalance f b).faults.entryOf (leakageKey s.cfg.serial f)).map (fun e => (e.state, e.details.sign)) =
      some (.active, some sg) := by
  rw [keepBalance_taken (evidence_leakage leaks), take_otherSign confirmed rfl turned]
  exact balanceOutcome_detailsChanged f (some sg) .leakage found active

/-! ## The row -/

section ListOnly
variable {s t : State} (h : ListOnly s t)
include h

theorem ListOnly.circuits : t.circuits = s.circuits := by
  unfold ListOnly at h
  rw [h]

theorem ListOnly.balance : t.balance = s.balance := by
  unfold ListOnly at h
  rw [h]

theorem ListOnly.cfg : t.cfg = s.cfg := by
  unfold ListOnly at h
  rw [h]

/-- R7: the fault list says nothing of a balance feed. -/
theorem ListOnly.balanceFeed (f : LampFn) : t.balanceFeed f = s.balanceFeed f := by
  unfold ListOnly at h
  rw [h]
  rfl

/-- R168 to R170: nor of a balance record. -/
theorem ListOnly.balanceRecord (f : LampFn) (clean : Bool) (ihead : Nat) :
    t.balanceRecord f clean ihead = s.balanceRecord f clean ihead := by
  unfold ListOnly at h
  rw [h]
  rfl

end ListOnly

/-- R7: judgement changes no circuit's configuration, and so no function's balance feed. -/
theorem balanceFeed_setC (s : State) (c : Circ) {k : Circuit} (same : k.cfg = s.circuits[c].cfg) (f : LampFn) :
    (s.setC c k).balanceFeed f = s.balanceFeed f := by
  have cfg (d : Circ) : (s.setC c k).circuits[d].cfg = s.circuits[d].cfg := by
    show (put s.circuits c k)[d].cfg = _
    rw [put_get]
    split
    next own => rw [own, same]
    next => rfl
  show (if s.isHead = true then _ else _) = _
  simp only [cfg]
  rfl

/-- R167, R168: the balance record of a window of a steady function's balance feed. -/
theorem judge_feedWindow {s : State} {c : Circ} {r : Rec} {rest : List Rec} (queue : s.circuits[c].queue = r :: rest)
    (due : r.due s.now = true) (feed : s.circuits[c].cfg.kind = .feed)
    (balanced : s.balanceFeed s.circuits[c].cfg.fn = some c) (steady : s.circuits[c].cfg.fn.isTurn = false)
    (window : r.kind = .window) :
    s.judge c r = (s.recorded c r rest).keepBalance s.circuits[c].cfg.fn
      (s.balanceRecord s.circuits[c].cfg.fn (s.cleanOn c r) (meanOf r.sumI r.n)) := by
  obtain ⟨f, frame⟩ := recorded_feed feed r rest
  have own : (s.recorded c r rest).circuits[c].cfg = s.circuits[c].cfg := by
    rw [frame.circuits, setC_own]
    rfl
  have still : (s.recorded c r rest).balanceFeed s.circuits[c].cfg.fn = some c :=
    (frame.balanceFeed _).trans ((balanceFeed_setC s c (k := s.circuits[c].judged _ _ _ _) rfl _).trans balanced)
  rw [judge_eq queue due]
  show State.formBalance (s.recorded c r rest) c r _ = _
  unfold State.formBalance
  rw [own]
  dsimp only
  rw [still, steady, window, if_pos (by simp), frame.balanceRecord]
  rfl

/-- R168, R170: the reasons of a record whose window is clean, in their order, and the result where none holds. -/
theorem balanceRecord_of_clean (s : State) (f : LampFn) (ihead : Nat) :
    let res := (s.balanceRecord f true ihead).result
    let stale := (s.roster.peers.any fun e => !e.isFresh) = true
    let unjudged := (s.roster.peers.any (·.unjudged f)) = true
    (s.coasting = true → res = .thin .coast) ∧
      (s.coasting = false → s.roster.unplaced ≠ [] → res = .thin .unplaced) ∧
      (s.coasting = false → s.roster.unplaced = [] → s.balance.unlistedAt ≠ none → res = .thin .unlisted) ∧
      (s.coasting = false → s.roster.unplaced = [] → s.balance.unlistedAt = none → stale → res = .thin .stale) ∧
      (s.coasting = false → s.roster.unplaced = [] → s.balance.unlistedAt = none → ¬ stale → unjudged →
        res = .thin .unjudged) ∧
      (s.coasting = false → s.roster.unplaced = [] → s.balance.unlistedAt = none → ¬ stale → ¬ unjudged →
        res = balanceOf ihead (s.roster.current f)) := by
  unfold State.balanceRecord State.thinReason
  dsimp only
  refine ⟨fun coasts => ?_, fun runs unplaced => ?_, fun runs placed unlisted => ?_, fun runs placed listed stale => ?_,
    fun runs placed listed fresh unjudged => ?_, fun runs placed listed fresh judged => ?_⟩
  · simp [coasts]
  · simp [runs, unplaced]
  · simp [runs, placed, Option.isSome_iff_ne_none.2 unlisted]
  · rw [if_pos stale]
    simp [runs, placed, listed]
  · rw [if_neg fresh, if_pos unjudged]
    simp [runs, placed, listed]
  · rw [if_neg fresh, if_neg judged]
    simp [runs, placed, listed]

/-- R169: the sum over the peers, share by share. -/
theorem sum_shares (r : Roster) (f : LampFn) {share : Rank → Circ → Nat} (same : ∀ x c, share x c = r.share f x c) :
    (∑ x : Rank, ∑ c : Circ, share x c) = r.current f := by
  rw [rosterCurrent_eq]
  exact Finset.sum_congr rfl fun x _ => Finset.sum_congr rfl fun c _ => same x c

/-- Only a clean window forms a record that is not thin. -/
theorem clean_of_shown {s : State} {f : LampFn} {clean : Bool} {ihead : Nat}
    (shown : (s.balanceRecord f clean ihead).result ≠ .thin .feed) : clean = true := by
  cases clean with
  | false => exact absurd rfl shown
  | true => rfl

/-- R46, R167, R171: what the row leaves when it takes such a window. -/
theorem takenForJudgement_feedWindow {s : State} {c : Circ} {r : Rec} {rest : List Rec}
    (queue : s.circuits[c].queue = r :: rest) (due : r.due s.now = true) (feed : s.circuits[c].cfg.kind = .feed)
    (balanced : s.balanceFeed s.circuits[c].cfg.fn = some c) (steady : s.circuits[c].cfg.fn.isTurn = false)
    (window : r.kind = .window) :
    ∃ t g, exec (.takenForJudgement c) s = .next t ∧
      t = { s with
        circuits := t.circuits, balance := t.balance, faults := t.faults, warn := t.warn, events := t.events
        flags := t.flags, link := t.link, tell := t.tell } ∧
      t.circuits =
        put s.circuits c (s.circuits[c].judged rest ⟨r.kind, meanOf r.sumI r.n, s.verdictOf c r⟩ g s.circuits[c].ref) ∧
      (let u := (s.recorded c r rest).keepBalance s.circuits[c].cfg.fn
        (s.balanceRecord s.circuits[c].cfg.fn (s.cleanOn c r) (meanOf r.sumI r.n))
      t.balance = u.balance ∧ t.faults = u.faults) := by
  obtain ⟨g, frame⟩ := recorded_feed feed r rest
  have judged := judge_feedWindow queue due feed balanced steady window
  have told := announce_frame s (s.judge c r)
  have kept := keepBalance_frame (s.recorded c r rest) s.circuits[c].cfg.fn
    (s.balanceRecord s.circuits[c].cfg.fn (s.cleanOn c r) (meanOf r.sumI r.n))
  refine ⟨_, g, takenForJudgement_eq queue due, ?_, ?_, ?_, ?_⟩
  · unfold ListOnly at frame
    rw [told, judged, kept, frame]
    rfl
  · rw [told, judged]
    exact (congrArg State.circuits kept).trans frame.circuits
  · rw [told, judged]
  · rw [told, judged]

/-- Settles O35: the row leaves the circuit judged and the balance record kept (`takenForJudgement_feedWindow`). A
record that is not thin comes from a clean verdict, which spares the entry LEAKAGE (`recorded_clean_spares`), so that
the balance filter's outcome finds it as it stood. -/
theorem feedWindowFormsBalance : Obligations.FeedWindowFormsBalance := by
  intro c r rest s k f head feed balanced notLeft notRight queue past window
  have due : r.due s.now = true := decide_eq_true past
  have steady : f.isTurn = false :=
    Bool.eq_false_of_not_eq_true fun turn => ((isTurn_iff f).1 turn).elim notLeft notRight
  obtain ⟨t, g, taken, same, circuits, balance, faults⟩ :=
    takenForJudgement_feedWindow queue due feed balanced steady window
  obtain ⟨_, frame⟩ := recorded_feed feed r rest
  have before : (s.recorded c r rest).balance = s.balance := frame.balance
  have serial : (s.recorded c r rest).cfg = s.cfg := frame.cfg
  obtain ⟨results, unlistedAt⟩ := keepBalance_result (s.recorded c r rest) f
    (s.balanceRecord f (s.cleanOn c r) (meanOf r.sumI r.n))
  have cleanIff := cleanOn_feed feed window
  rw [litThroughout_iff, thinForLamps_window window] at cleanIff
  simp only [not_or, Nat.not_lt, and_assoc] at cleanIff
  refine ⟨t, (s.balanceRecord f (s.cleanOn c r) (meanOf r.sumI r.n)).result, taken, same, fun d other => ?_,
    ?_, ?_, ?_, ?_⟩
  · exact (congrArg (·[d]) circuits).trans (put_other _ _ other)
  · exact congrArg Circuit.queue ((congrArg (·[c]) circuits).trans (put_same _ _ _))
  · rw [balance, results, before]
    rfl
  · rw [balance, unlistedAt, before]
  · have reasons := balanceRecord_of_clean s f (meanOf r.sumI r.n)
    dsimp only at reasons
    rw [stalePeer_iff, unjudgedPeer_iff] at reasons
    obtain ⟨coast, unplaced, unlisted, stale, unjudged, formed⟩ := reasons
    dsimp only
    rw [sum_shares s.roster f fun x c => by unfold Roster.share; cases s.roster.slots[x] <;> rfl]
    refine ⟨fun lit => ?_, fun unclean => ?_, fun lit => cleanIff.2 lit ▸ coast, fun lit => cleanIff.2 lit ▸ unplaced,
      fun lit => cleanIff.2 lit ▸ unlisted, fun lit => cleanIff.2 lit ▸ stale, fun lit => cleanIff.2 lit ▸ unjudged,
      fun lit => cleanIff.2 lit ▸ formed, fun why thin => ?_, fun x shown => ?_, fun sg x shown => ?_⟩
    · rw [(congrArg (·[c]) circuits).trans (put_same _ _ _)]
      exact verdictOf_feed_clean feed window (cleanIff.2 lit)
    · rw [Bool.eq_false_of_not_eq_true (mt cleanIff.1 unclean)]
      rfl
    · rw [balance, keepBalance_thin_filters thin, before]
    · refine ⟨?_, fun confirmed fifth => ?_⟩
      · rw [balance, keepBalance_balance (evidence_clean shown), before]
        rfl
      · rw [faults]
        have cleared := keepBalance_clears (s := s.recorded c r rest) shown (by rwa [before]) (by rwa [before])
        rwa [serial] at cleared
    · have spared := recorded_clean_spares
        (verdictOf_feed_clean feed window (clean_of_shown (shown.trans_ne nofun))) rest f
      refine ⟨?_, fun candidate third unconfirmed fresh room => ?_, fun e confirmed turned found active => ?_⟩
      · rw [balance, keepBalance_balance (evidence_leakage shown), before]
        rfl
      · rw [faults]
        have confirmed := keepBalance_confirms (s := s.recorded c r rest) shown (by rwa [before]) (by rwa [before])
          (by rwa [before]) (by rw [serial]; exact spared.fresh fresh) (spared.length.trans_lt room)
        rwa [serial] at confirmed
      · rw [faults]
        obtain ⟨extent, still⟩ := spared.found found
        have changed := keepBalance_changes (s := s.recorded c r rest) (e := { e with extent := extent }) shown
          (by rwa [before]) (by rwa [before]) (by rwa [serial]) active
        rwa [serial] at changed

end Sys2Proof.Machine
end

section
/-! SUPPORT. A confirmation filter under runs of verdicts (R85 to R88, R90): three of a kind, five clean, one of the
confirmed kind. -/

namespace Sys2Proof.Machine

/-! ## A verdict of a kind that is not confirmed -/

/-- R87, R88: the first of a run makes its kind the candidate, and breaks a run of clean verdicts. -/
theorem take_firstOfRun {f : Filter} {k : FaultKind} {e : Evidence} (kind : e.kind = some k)
    (unconfirmed : f.confirmed ≠ some k) (fresh : f.candidate ≠ some k) :
    f.take e =
      ({ f with candidate := some k, confirm := 1, clear := if f.confirmed = none then f.clear else 0 }, []) := by
  cases held : f.confirmed <;> simp_all [Filter.take, Filter.test]

/-- R87, R88: the second counts. -/
theorem take_secondOfRun {f : Filter} {k : FaultKind} {e : Evidence} (kind : e.kind = some k)
    (unconfirmed : f.confirmed ≠ some k) (candidate : f.candidate = some k) (second : f.confirm = 1)
    (broken : f.confirmed ≠ none → f.clear = 0) : f.take e = ({ f with confirm := 2 }, []) := by
  cases held : f.confirmed with
  | none => simp [Filter.take, Filter.test, kind, held, candidate, second]
  | some old =>
    have clear : f.clear = 0 := broken (by simp [held])
    simp [Filter.take, Filter.test, kind, candidate, second, clear, held, held ▸ unconfirmed]

/-- R87, R88, R90: the third confirms its kind; where another was confirmed, that one is handed on as cleared first. -/
theorem take_thirdOfRun {f : Filter} {k : FaultKind} {e : Evidence} (kind : e.kind = some k)
    (unconfirmed : f.confirmed ≠ some k) (candidate : f.candidate = some k) (third : f.confirm = 2) :
    f.take e = (f.hold k e, match f.confirmed with
      | none => [.confirmed k]
      | some old => [.cleared old, .confirmed k]) := by
  cases held : f.confirmed with
  | none => exact take_third held candidate third kind
  | some old => simp [Filter.take, Filter.test, kind, candidate, third, held, held ▸ unconfirmed]

/-! ## A clean verdict -/

/-- R85: with nothing confirmed a clean verdict ends a run of candidates. -/
theorem take_clean_unconfirmed {f : Filter} {e : Evidence} (clean : e.kind = none) (unconfirmed : f.confirmed = none) :
    f.take e = ({ f with candidate := none, confirm := 0 }, []) := by
  simp [Filter.take, Filter.takeClean, clean, unconfirmed]

/-- R85: a clean verdict before the fifth counts. -/
theorem take_clean_counts {f : Filter} {k : FaultKind} {e : Evidence} (clean : e.kind = none)
    (confirmed : f.confirmed = some k) (few : f.clear < 4) :
    f.take e = ({ f with candidate := none, confirm := 0, clear := f.clear + 1 }, []) := by
  simp [Filter.take, Filter.takeClean, clean, confirmed, Nat.not_le_of_lt (Nat.succ_lt_succ few)]

/-- R85: the fifth clears. -/
theorem take_clean_clears {f : Filter} {k : FaultKind} {e : Evidence} (clean : e.kind = none)
    (confirmed : f.confirmed = some k) (fifth : 4 ≤ f.clear) : f.take e = (.start f.n, [.cleared k]) := by
  simp [Filter.take, Filter.takeClean, Filter.release, clean, confirmed, Nat.succ_le_succ fifth]

/-- R85: what a clean verdict before the fifth leaves for the next one. -/
theorem take_clean_counted {f : Filter} {k : FaultKind} {e : Evidence} (clean : e.kind = none)
    (confirmed : f.confirmed = some k) (few : f.clear < 4) :
    (f.take e).1.confirmed = some k ∧ (f.take e).1.clear = f.clear + 1 := by
  rw [take_clean_counts clean confirmed few]
  exact ⟨confirmed, rfl⟩

/-- R85: four clean verdicts in a row leave the kind confirmed and their count at 4. -/
theorem take_clean_four {f : Filter} {k : FaultKind} {e : Evidence} (clean : e.kind = none)
    (confirmed : f.confirmed = some k) (first : f.clear = 0) :
    let f4 := ((((f.take e).1.take e).1.take e).1.take e).1
    f4.confirmed = some k ∧ f4.clear = 4 := by
  obtain ⟨confirmed1, count1⟩ := take_clean_counted clean confirmed (by omega)
  obtain ⟨confirmed2, count2⟩ := take_clean_counted clean confirmed1 (by omega)
  obtain ⟨confirmed3, count3⟩ := take_clean_counted clean confirmed2 (by omega)
  obtain ⟨confirmed4, count4⟩ := take_clean_counted clean confirmed3 (by omega)
  exact ⟨confirmed4, by omega⟩

/-! ## A verdict of the confirmed kind -/

/-- R86: a verdict of the confirmed kind refreshes what the filter holds. -/
theorem take_confirmedKind {f : Filter} {k : FaultKind} {e : Evidence} (kind : e.kind = some k)
    (confirmed : f.confirmed = some k) : f.take e = f.refresh k e := by
  simp [Filter.take, kind, confirmed]

/-- Settles O11: the run of three by its first, second and third verdict, the clean ones by their count, and a verdict of
the confirmed kind by what the filter then holds. -/
theorem threeConfirmFiveClear : Obligations.ThreeConfirmFiveClear := by
  intro f k a b c z clean held
  refine ⟨fun kindA kindB kindC unconfirmed fresh => ?_, take_clean_unconfirmed clean, take_clean_counts clean,
    take_clean_clears clean, fun confirmed first => ?_, fun kind confirmed => ?_⟩
  · have first := take_firstOfRun kindA unconfirmed fresh
    have second := take_secondOfRun (f := (f.take a).1) kindB (by rw [first]; exact unconfirmed) (by rw [first])
      (by rw [first]) (by rw [first]; exact fun other => if_neg other)
    refine ⟨first, second, ?_⟩
    rw [second, first]
    exact take_thirdOfRun kindC unconfirmed rfl rfl
  · obtain ⟨still, four⟩ := take_clean_four clean confirmed first
    have fifth := take_clean_clears clean still four.ge
    simp only [take_n] at fifth
    exact ⟨still, four, congrArg Prod.fst fifth, congrArg Prod.snd fifth⟩
  · rw [take_confirmedKind kind confirmed]
    exact ⟨rfl, fun same => if_pos same, fun changed => if_neg changed⟩

end Sys2Proof.Machine
end

section
/-! SUPPORT. What a STATUS tells of (R136) and what leaves it as it was: the operations of every row that tells nothing. -/

namespace Sys2Proof.Machine

/-! ## The relation -/

/-- R136: nothing is told of a state with the same active causes and the same news of every circuit. -/
theorem news_eq {s t : State} (causes : t.activeCauses = s.activeCauses)
    (circuits : ∀ c : Circ, t.circuits[c].news = s.circuits[c].news) : t.news = s.news := by
  unfold State.news
  rw [causes, funext circuits]

/-- A row that acts only where its condition holds. -/
theorem ite_news {s t : State} {p : Prop} [Decidable p] (h : t.news = s.news) : (if p then t else s).news = s.news := by
  split
  · exact h
  · rfl

/-- R136: nothing of the fault list, WARN or the event queue is told in a STATUS. -/
theorem ListOnly.news {s t : State} (h : ListOnly s t) : t.news = s.news := by
  unfold ListOnly at h
  rw [h]
  rfl

/-! ## The fault list -/

theorem raise_listOnly (s : State) (b : EventBody) : ListOnly s (s.raise b) := by
  rcases raise_cases s b with ⟨_, e⟩ | ⟨_, _, e⟩ | ⟨_, _, e⟩ <;> rw [e] <;> rfl

theorem mapEntries_listOnly (s : State) (g : Entry → Entry) : ListOnly s (s.mapEntries g) := rfl

theorem headClashInput_listOnly (s : State) (begins : Bool) : ListOnly s (s.headClashInput begins) := by
  refine ListOnly.trans ?_ (settleList_listOnly _)
  split
  · exact confirm_listOnly _ _ _ _
  · exact clear_listOnly _ _

theorem rankClashInput_listOnly (s : State) (n : Serial) (begins : Bool) (claim : Option Rank) :
    ListOnly s (s.rankClashInput n begins claim) := by
  refine ListOnly.trans ?_ (settleList_listOnly _)
  split
  · exact confirm_listOnly _ _ _ _
  · exact clear_listOnly _ _

theorem ackAt_listOnly (s : State) (i : Nat) : ListOnly s (s.ackAt i) := by
  unfold ListOnly
  rw [ackAt_frame]

theorem clearCircuit_listOnly (n : Serial) (prev : Option Report) (now : Report) (s : State) (c : Circ) :
    ListOnly s (clearCircuit n prev now s c) := by
  unfold clearCircuit
  split
  · exact .refl s
  · split
    · exact .refl s
    · exact clear_listOnly _ _

theorem clearLoss_listOnly (n : Serial) (prev : Option Report) (now : Report) (s : State) (c : Circ) :
    ListOnly s (clearLoss n prev now s c) := by
  unfold clearLoss
  dsimp only
  split
  · exact clear_listOnly _ _
  · exact (clear_listOnly s _).trans (mapEntries_listOnly _ _)
  all_goals exact .refl s

theorem confirmCircuit_listOnly (n : Serial) (prev : Option Report) (now : Report) (s : State) (c : Circ) :
    ListOnly s (confirmCircuit n prev now s c) := by
  unfold confirmCircuit
  split
  · exact .refl s
  · split
    · exact detail_listOnly _ _ _
    · exact confirm_listOnly _ _ _ _

theorem confirmLoss_listOnly (n : Serial) (prev : Option Report) (now : Report) (s : State) (c : Circ) :
    ListOnly s (confirmLoss n prev now s c) := by
  unfold confirmLoss
  dsimp only
  repeat' split
  · exact .refl s
  · exact .refl s
  · exact detail_listOnly _ _ _
  · exact confirm_listOnly _ _ _ _
  · exact confirm_listOnly _ _ _ _

theorem comparePasses_listOnly (s : State) (n : Serial) (prev : Option Report) (now : Report) :
    ListOnly s (s.comparePasses n prev now) :=
  (((ListOnly.foldl (clearCircuit_listOnly n prev now) _ _).trans (.foldl (clearLoss_listOnly n prev now) _ _)).trans
    (.foldl (confirmCircuit_listOnly n prev now) _ _)).trans (.foldl (confirmLoss_listOnly n prev now) _ _)

/-! ## A STATUS on the head, and stations lost -/

theorem joinStation_listOnly (s : State) (n : Serial) (now : Report) : ListOnly s (s.joinStation n now) := by
  unfold State.joinStation
  dsimp only
  refine ListOnly.trans (ListOnly.trans ?_ (comparePasses_listOnly _ _ _ _)) (.foldl clear_listOnly _ _)
  refine ListOnly.trans ?_ (mapEntries_listOnly _ _)
  split
  · exact (raise_listOnly s _).trans (clear_listOnly _ _)
  · exact raise_listOnly s _

theorem hearStation_listOnly (s : State) (n : Serial) (prev : Option Report) (now : Report) :
    ListOnly s (s.hearStation n prev now) :=
  (mapEntries_listOnly s _).trans (comparePasses_listOnly _ _ _ _)

theorem statusInput_listOnly (s : State) (n : Serial) (prev : Option Report) (rep : Report) (out : Placement) :
    ListOnly s (s.statusInput n prev rep out) := by
  unfold State.statusInput
  split
  · exact settleList_listOnly s
  · refine ListOnly.trans ?_ (settleList_listOnly _)
    cases out with
    | new => exact joinStation_listOnly _ _ _
    | refreshed => exact hearStation_listOnly _ _ _ _
    | moved src dst => exact hearStation_listOnly _ _ _ _
    | notTaken => exact .refl s

theorem clashChange_listOnly (s : State) (before : Roster) (n : Serial) (claim : Option Rank) :
    ListOnly s (s.clashChange before n claim) := by
  unfold State.clashChange
  split
  · exact rankClashInput_listOnly _ _ _ _
  · exact rankClashInput_listOnly _ _ _ _
  all_goals exact .refl s

theorem raiseRankChanged_listOnly (s : State) (n : Serial) (out : Placement) :
    ListOnly s (s.raiseRankChanged n out) := by
  unfold State.raiseRankChanged
  split
  · exact raise_listOnly _ _
  all_goals exact .refl s

theorem orphan_listOnly (s : State) (k : Key) : ListOnly s (s.orphan k) :=
  (mapEntries_listOnly s _).trans (raise_listOnly _ _)

theorem loseStation_listOnly (s : State) (n : Serial) (r : Rank) : ListOnly s (s.loseStation n r) :=
  ((((raise_listOnly s _).trans (mapEntries_listOnly _ _)).trans (confirm_listOnly _ _ _ _)).trans
    (.foldl orphan_listOnly _ _)).trans (settleList_listOnly _)

theorem listStatus_news (s : State) (before : Roster) (h : RxHeader) (prev : Option Report) (rep : Report)
    (out : Placement) : (s.listStatus before h prev rep out).news = s.news := by
  unfold State.listStatus
  split
  · exact (statusInput_listOnly _ _ _ _ _).news
  · dsimp only
    split
    · exact ((clashChange_listOnly _ _ _ _).trans (statusInput_listOnly _ _ _ _ _)).news
    · exact ((statusInput_listOnly _ _ _ _ _).trans (clashChange_listOnly _ _ _ _)).news

theorem noteUnlisted_news (s : State) (out : Placement) : (s.noteUnlisted out).news = s.news := by cases out <;> rfl

theorem untrack_news (s : State) (n : Serial) (status : LearnDone) : (s.untrack n status).news = s.news :=
  (raise_listOnly _ _).news

theorem trackLearning_news (s : State) (n : Serial) (rep : Report) : (s.trackLearning n rep).news = s.news := by
  unfold State.trackLearning
  repeat' split
  · rfl
  · rfl
  · exact untrack_news _ _ _
  all_goals rfl

theorem learnStatus_news (s : State) (n : Serial) (rep : Report) (out : Placement) :
    (s.learnStatus n rep out).news = s.news := by
  cases out with
  | notTaken => rfl
  | new => exact trackLearning_news _ _ _
  | refreshed => exact trackLearning_news _ _ _
  | moved src dst => exact trackLearning_news _ _ _

theorem takeStatus_news (s : State) (h : RxHeader) (rep : Report) : (s.takeStatus h rep).news = s.news := by
  unfold State.takeStatus
  dsimp only
  split
  · exact (((learnStatus_news _ _ _ _).trans (raiseRankChanged_listOnly _ _ _).news).trans
      (noteUnlisted_news _ _)).trans (listStatus_news _ _ _ _ _ _)
  · rfl

theorem trackExpiry_news (s : State) (n : Serial) : (s.trackExpiry n).news = s.news := ite_news (untrack_news _ _ _)

theorem expireSlot_news (s : State) (r : Rank) (e : RosterEntry) : (s.expireSlot r e).news = s.news := by
  unfold State.expireSlot
  dsimp only
  split
  · exact (trackExpiry_news _ _).trans (loseStation_listOnly _ _ _).news
  · rfl

theorem expireUnplaced_news (s : State) (i : Nat) (e : RosterEntry) : (s.expireUnplaced i e).news = s.news := by
  unfold State.expireUnplaced
  dsimp only
  split
  · exact (trackExpiry_news _ _).trans (ite_news (rankClashInput_listOnly _ _ _ _).news)
  · rfl

/-! ## Circuits -/

theorem push_news (k : Circuit) (r : Rec) : (k.push r).news = k.news := by
  rw [push_frame]
  rfl

theorem closeForMode_news (k : Circuit) (now : Ms) : (k.closeForMode now).news = k.news := by
  rw [closeForMode_frame]
  rfl

theorem toOnPhase_news (k : Circuit) (now : Ms) : (k.toOnPhase now).news = k.news := by
  unfold Circuit.toOnPhase
  dsimp only
  split <;> exact closeForMode_news k now

theorem flashingChange_news (k : Circuit) (flashing : Bool) (now : Ms) :
    (k.flashingChange flashing now).news = k.news := by
  unfold Circuit.flashingChange
  split
  · split
    · exact toOnPhase_news _ now
    all_goals rfl
  · rfl

theorem missFlash_news (k : Circuit) (at_ now : Ms) : (k.missFlash at_ now).news = k.news := by
  unfold Circuit.missFlash
  dsimp only
  split
  · rfl
  · split
    · exact push_news _ _
    · rfl

theorem silence_news (k : Circuit) (at_ : Ms) : (k.silence at_).news = k.news := by
  unfold Circuit.silence
  dsimp only
  split
  · rfl
  · exact push_news _ _

theorem takeSample_news (s : State) (c : Circ) (vm im : Nat) (stamp : Ms) :
    (s.takeSample c vm im stamp).news = s.news := by
  unfold State.takeSample
  dsimp only
  split
  · rfl
  · split
    · exact setC_news (k := { s.circuits[c] with pendingSample := some ⟨vm, im, stamp⟩ }) rfl
    · exact ite_news (setC_news rfl)

/-! ## The pending set, the converter and the reported period -/

theorem putSlot_news (s : State) (k : TKind) (f : Slots → Slots) : (s.putSlot k f).news = s.news := by
  rcases putSlot_cases s k f with ⟨_, e⟩ | ⟨_, e⟩ <;> rw [e]
  rfl

theorem queueStatus_news (s : State) : s.queueStatus.news = s.news := putSlot_news _ _ _

theorem queueCommand_news (s : State) : s.queueCommand.news = s.news := putSlot_news _ _ _

theorem announce_news (b s : State) : (announce b s).news = s.news := by
  rw [announce_frame]
  rfl

theorem arbitrate_news (s : State) : s.arbitrate.news = s.news := by
  rw [arbitrate_frame]
  rfl

theorem afterPair_news (s : State) (c : Circ) : (s.afterPair c).news = s.news := by
  rw [afterPair_frame]
  rfl

theorem startReading_news (s : State) (tag : BitVec 4) (c : Circ) : (s.startReading tag c).news = s.news :=
  arbitrate_news _

theorem takeSpotPair_news (s : State) (c : Circ) (vm im : Nat) : (s.takeSpotPair c vm im).news = s.news := by
  unfold State.takeSpotPair
  split
  · rfl
  · refine ite_news ?_
    rw [addSpotPair_frame]
    rfl

/-- R49, R58: the head's ring is no cause of its own, so a new epoch tells nothing. -/
theorem epochChange_news {s : State} (head : s.isHead = true) : s.epochChange.news = s.news := by
  refine news_eq ?_ fun c => ?_
  · have frame := epochChange_frame s
    have role : s.epochChange.isHead = true := by rw [frame]; exact head
    unfold State.activeCauses
    rw [if_pos role, if_pos head, role, head, frame]
  · have told : s.epochChange.circuits = (State.addRing _ _).circuits := queueCommand_circuits _
    rw [told]
    rcases addRing_circuit _ _ c with e | e <;> rw [e]
    exact flashingChange_news _ _ _

theorem reevaluatePeriod_news (b s : State) : (reevaluatePeriod b s).news = s.news := by
  rcases reevaluatePeriod_cases b s with e | ⟨x, _, e⟩ | ⟨x, p, head, e⟩ <;> rw [e]
  · rfl
  · exact epochChange_news (s := { s with source := { s.source with lastSource := x, reported := p } }) head

/-! ## The write engine -/

theorem setSave_news (s : State) (c : Circ) (v : SaveState) : (s.setSave c v).news = s.news := setC_news rfl

theorem startWrite_news (s : State) : s.startWrite.news = s.news := by
  rcases startWrite_cases s with ⟨_, e⟩ | ⟨_, _, _, e⟩ | ⟨q, _, _, _, _, e⟩ | ⟨_, e⟩ <;> rw [e]
  · rfl
  · exact setSave_news _ _ _

theorem reportWrite_news (s : State) (item : StoreItem) (ok : Bool) : (s.reportWrite item ok).news = s.news := by
  cases item with
  | config => rfl
  | reference c =>
    unfold State.reportWrite
    dsimp only
    split
    · rfl
    · exact setSave_news _ _ _

theorem endWrite_news (s : State) (w : StoreWrite) (readback : List Byte) : (s.endWrite w readback).news = s.news := by
  rw [endWrite_eq]
  exact (startWrite_news _).trans (reportWrite_news _ _ _)

theorem storeConfig_news (block : List Byte) (s : State) : (s.storeConfig block).news = s.news := by
  rcases storeConfig_cases block s with ⟨_, e⟩ | ⟨_, _, e⟩ | ⟨_, _, e⟩ <;> rw [e]
  · rfl
  · rfl
  · exact startWrite_news _

/-! ## Telegrams, the transmitter and the port -/

theorem arrive_news {α : Type} {consume : State → α → State} (h : ∀ s a, (consume s a).news = s.news) (s : State)
    (k : TKind) (content : Option α) : (s.arrive k content consume).news = s.news := by
  rcases arrive_cases s k content consume with ⟨_, e⟩ | ⟨_, _, e⟩ | ⟨_, _, _, e⟩ <;> rw [e]
  · rfl
  · rfl
  · exact h _ _

theorem takeReading_news (s : State) (n : Serial) (tag : BitVec 4) (c : Circ) (d : ReadingData) :
    (s.takeReading n tag c d).news = s.news := by
  rcases takeReading_cases s n tag c d with ⟨_, _, _, e⟩ | e <;> rw [e]
  · exact (raise_listOnly _ _).news
  · rfl

theorem tellFree_news (s : State) (k : TKind) : (s.tellFree k).news = s.news := by
  cases k with
  | query =>
    show s.offerQuery.news = _
    unfold State.offerQuery
    split
    · rfl
    · exact putSlot_news _ _ _
  | reading =>
    show s.offerReading.news = _
    unfold State.offerReading
    split
    · rfl
    · exact putSlot_news _ _ _
  | command => rfl
  | learn => rfl
  | status => rfl

theorem complete_news (s : State) (a : Attempt) : (s.complete a).news = s.news := by
  unfold State.complete
  dsimp only
  split
  · rfl
  · exact tellFree_news _ _

theorem atRelease_news {act : State → State} (h : ∀ s, (act s).news = s.news) (s : State) :
    (s.atRelease act).news = s.news := by
  rcases atRelease_cases s act with ⟨_, e⟩ | ⟨_, e⟩ | ⟨_, e⟩ | ⟨_, e⟩ <;> rw [e]
  · rfl
  · exact h _
  · exact h _

theorem reply_news (s : State) (outcome : Byte) (data : List Byte) : (s.reply outcome data).news = s.news := rfl

theorem headOnly_news {act : State → State} (h : ∀ s, (act s).news = s.news) (s : State) :
    (State.headOnly act s).news = s.news := by
  rcases headOnly_cases act s with ⟨_, e⟩ | ⟨_, e⟩ <;> rw [e]
  · exact h s
  · rfl

theorem popEvent_news (s : State) : s.popEvent.news = s.news := by
  rcases popEvent_cases s with ⟨_, e⟩ | ⟨_, _, _, e⟩ <;> rw [e] <;> rfl

theorem readEntry_news (index : Byte) (s : State) : (s.readEntry index).news = s.news := by
  unfold State.readEntry
  split <;> rfl

theorem ack_news (index : Byte) (n : Serial) (s : State) : (s.ack index n).news = s.news := by
  rcases ack_cases s index n with ⟨_, e⟩ | ⟨_, _, _, e⟩ | ⟨_, _, _, _, e⟩ <;> rw [e]
  · rfl
  · rfl
  · exact (ackAt_listOnly _ _).news

theorem clearFlags_news (mask : Byte) (s : State) : (s.clearFlags mask).news = s.news := rfl

theorem ackAll_news (s : State) : s.ackAll.news = s.news := (ListOnly.foldl ackAt_listOnly _ s).news

theorem requestLearn_news (stations circuits : Byte) (s : State) : (s.requestLearn stations circuits).news = s.news := by
  rcases requestLearn_cases s stations circuits with ⟨_, e⟩ | ⟨_, _, _, e⟩ | ⟨_, _, _, e⟩ <;> rw [e]
  · rfl
  · rfl
  · exact putSlot_news _ _ _

theorem queueQuery_news (s : State) (p : BitVec 24) : (s.queueQuery p).news = s.news := by
  unfold State.queueQuery
  split
  · rfl
  · exact putSlot_news _ _ _

theorem requestSpot_news (r : Rank) (c : Circ) (s : State) : (s.requestSpot r c).news = s.news := by
  rcases requestSpot_cases s r c with ⟨_, e⟩ | ⟨_, _, _, e⟩ | ⟨_, _, _, e⟩ | ⟨_, _, _, _, _, e⟩ <;> rw [e]
  · rfl
  · exact startReading_news _ _ _
  · rfl
  · exact queueQuery_news _ _

end Sys2Proof.Machine
end

section
/-! SUPPORT. How a change is told (R136, R155): what every row leaves of the telling before the change is noted, and what
noting it then makes of the telling and of the STATUS slot. -/

namespace Sys2Proof.Machine

/-! ## The telling before the change is noted -/

/-- R136, R155: what noting a change reads: the time, the timers, the head clash deadline and the STATUS slot. -/
structure Teller where
  now : Ms
  tell : Telling
  headClashAt : Option Ms
  status : Option (BitVec 288)

def State.teller (s : State) : Teller := ⟨s.now, s.tell, s.headClashAt, s.link.slots.status⟩

/-- R155, log entry 19: a head clash begins in the millisecond in which another ended, while no change waits. -/
def Teller.folds (x y : Teller) : Prop :=
  x.headClashAt = none ∧ y.headClashAt ≠ none ∧ x.tell.clashEnd = some x.now ∧ x.tell.waiting = false

/-- R136, R155: what the effect of a row leaves of the telling before its change is noted: the timers as they ran, but for
a holdoff that ends where two changes of HEAD CLASH are folded. -/
structure Untold (x y : Teller) : Prop where
  now : y.now = x.now
  status : y.status = x.status
  statusAt : y.tell.statusAt = x.tell.statusAt
  expiredAt : y.tell.expiredAt = x.tell.expiredAt
  folded : x.folds y → y.tell.holdoffAt = x.now
  runs : ¬ x.folds y → y.tell.holdoffAt = x.tell.holdoffAt

theorem Untold.refl (x : Teller) : Untold x x :=
  ⟨rfl, rfl, rfl, rfl, fun ⟨free, clash, _⟩ => absurd free clash, fun _ => rfl⟩

/-- An effect that leaves all that noting a change reads. -/
theorem Untold.same {x y : Teller} (h : y = x) : Untold x y := h ▸ .refl x

theorem ListOnly.teller {s t : State} (h : ListOnly s t) : t.teller = s.teller := by
  unfold ListOnly at h
  rw [h]
  rfl

theorem coastEdge_teller (b s : State) : (coastEdge b s).teller = s.teller := by
  rw [coastEdge_frame]
  rfl

/-- R59: the event of a coast that begins or ends is not read. -/
theorem Untold.coastEdge {x : Teller} {s : State} (h : Untold x s.teller) (b : State) :
    Untold x (coastEdge b s).teller := by
  rw [coastEdge_teller]
  exact h

theorem release_teller (s : State) : s.release.teller = s.teller := by
  rw [release_frame]
  rfl

/-- R127: the COMMAND queued with a new epoch stands in a slot of its own. -/
theorem epochChange_teller (s : State) : s.epochChange.teller = s.teller := by
  unfold State.epochChange
  dsimp only
  generalize hu : State.addRing _ _ = u
  rcases queueCommand_cases u with ⟨_, e⟩ | ⟨_, e⟩ <;> rw [e, ← hu] <;> rfl

theorem reevaluatePeriod_teller (b s : State) : (reevaluatePeriod b s).teller = s.teller := by
  rcases reevaluatePeriod_cases b s with e | ⟨x, _, e⟩ | ⟨x, p, _, e⟩ <;> rw [e]
  · rfl
  · exact epochChange_teller _

theorem confirmEdge_teller (s : State) (c : Circ) (vm : Nat) : (s.confirmEdge c vm).teller = s.teller := by
  unfold State.confirmEdge
  dsimp only
  split
  · rfl
  · split
    · exact reevaluatePeriod_teller _ _
    · rfl

theorem setRank_teller (s : State) (u : RankUnit) : (s.setRank u).teller = s.teller := by
  rcases setRank_cases s u with e | ⟨_, _, e⟩ <;> rw [e] <;> rfl

/-! ## Judgement -/

theorem startWrite_teller (s : State) : s.startWrite.teller = s.teller := by
  rcases startWrite_cases s with ⟨_, e⟩ | ⟨_, _, _, e⟩ | ⟨_, _, _, _, _, e⟩ | ⟨_, e⟩ <;> rw [e] <;> rfl

theorem handSample_teller (s : State) (c : Circ) (sample : Nat) : (s.handSample c sample).teller = s.teller := by
  rcases handSample_cases s c sample with ⟨_, e⟩ | ⟨_, _, _, e⟩ | ⟨_, _, _, e⟩ <;> rw [e]
  · rfl
  · unfold State.finishLearning
    dsimp only
    split
    · exact startWrite_teller _
    · rfl

theorem applyFilter_teller (s : State) (c : Circ) (v : Verdict) : (s.applyFilter c v).teller = s.teller :=
  (applyFilter_listed s c v).frame.teller

theorem applyVerdict_teller (s : State) (c : Circ) (v : Option Verdict) : (s.applyVerdict c v).teller = s.teller := by
  rcases applyVerdict_cases s c v with e | ⟨_, _, _, _, e⟩ | ⟨_, _, _, _, _, e⟩ <;> rw [e]
  · exact applyFilter_teller _ _ _
  · exact (handSample_teller _ _ _).trans (applyFilter_teller _ _ _)

theorem formBalance_teller (s : State) (c : Circ) (r : Rec) (clean : Bool) :
    (s.formBalance c r clean).teller = s.teller := by
  rw [formBalance_frame]
  rfl

theorem judge_teller (s : State) (c : Circ) (r : Rec) : (s.judge c r).teller = s.teller := by
  unfold State.judge
  exact (formBalance_teller _ _ _ _).trans (applyVerdict_teller _ _ _)

/-! ## Telegrams and the head clash -/

/-- R120, R125: an arrival leaves the pending set. -/
theorem good_link_teller (s : State) : ({ s with link := (s.link.good s.now).recount } : State).teller = s.teller := by
  have slots : (s.link.good s.now).recount.slots = s.link.slots := by rw [recount_slots, good_frame]
  unfold State.teller
  rw [slots]
  rfl

theorem arrive_untold {α : Type} {consume : State → α → State} (h : ∀ s a, Untold s.teller (consume s a).teller)
    (s : State) (k : TKind) (content : Option α) : Untold s.teller (s.arrive k content consume).teller := by
  rcases arrive_cases s k content consume with ⟨_, e⟩ | ⟨_, _, e⟩ | ⟨c, _, _, e⟩ <;> rw [e]
  · exact .same (good_link_teller s)
  · exact .same (good_link_teller s)
  · have consumed := h { s with link := (s.link.good s.now).recount } c
    rwa [good_link_teller] at consumed

theorem trackCommand_teller (s : State) (n : Serial) (m : CommandContent) :
    (s.trackCommand n m).teller = s.teller := by
  rcases trackCommand_cases s n m with e | e | e <;> rw [e] <;> rfl

/-- R155: the beginning of a head clash is folded with the end of another in the same millisecond, or folds nothing. -/
theorem fold_cases (t : Telling) (now : Ms) :
    (t.clashEnd = some now ∧ t.waiting = false) ∧ t.fold now = { t with holdoffAt := now } ∨
      ¬ (t.clashEnd = some now ∧ t.waiting = false) ∧ t.fold now = t := by
  unfold Telling.fold
  by_cases h : t.clashEnd = some now <;> cases g : t.waiting <;> simp [h]

theorem clashCommand_untold (s : State) : Untold s.teller s.clashCommand.teller := by
  cases clash : s.headClashAt with
  | some deadline =>
    have tell : s.clashCommand.tell = s.tell := by simp [State.clashCommand, clash]
    have still : s.clashCommand.teller = { s.teller with headClashAt := some (s.now + 1500) } :=
      congrArg (fun t => (⟨s.now, t, some (s.now + 1500), s.link.slots.status⟩ : Teller)) tell
    rw [still]
    exact ⟨rfl, rfl, rfl, rfl, fun ⟨free, _⟩ => (Option.some_ne_none _ (clash.symm.trans free)).elim, fun _ => rfl⟩
  | none =>
    have tell : s.clashCommand.tell = s.tell.fold s.now := by simp [State.clashCommand, clash]
    have begins : s.clashCommand.teller = ⟨s.now, s.tell.fold s.now, some (s.now + 1500), s.link.slots.status⟩ :=
      congrArg (fun t => (⟨s.now, t, some (s.now + 1500), s.link.slots.status⟩ : Teller)) tell
    rw [begins]
    rcases fold_cases s.tell s.now with ⟨⟨ended, idle⟩, e⟩ | ⟨apart, e⟩ <;> rw [e]
    · exact ⟨rfl, rfl, rfl, rfl, fun _ => rfl, fun n => absurd ⟨clash, nofun, ended, idle⟩ n⟩
    · exact ⟨rfl, rfl, rfl, rfl, fun ⟨_, _, ended, idle⟩ => absurd ⟨ended, idle⟩ apart, fun _ => rfl⟩

theorem takeCommand_untold (h : RxHeader) (s : State) (m : CommandContent) :
    Untold s.teller (s.takeCommand h m).teller := by
  have clash := (clashCommand_untold s).coastEdge s
  unfold State.takeCommand
  dsimp only
  split
  · split
    · rw [(headClashInput_listOnly _ _).teller]
      exact clash
    · exact clash
  · split
    · split
      · exact .same (trackCommand_teller _ _ _)
      · exact clashCommand_untold s
    · exact .refl _

/-- R155: the end of a head clash is marked for one that begins in the same millisecond. -/
theorem clashEnded_untold (s : State) : Untold s.teller s.clashEnded.teller :=
  ⟨rfl, rfl, rfl, rfl, fun ⟨_, clash, _⟩ => absurd rfl clash, fun _ => rfl⟩

/-! ## The change noted -/

/-- R136: a STATUS with the report of t was queued at a moment, unless the station is silent. -/
def StatusQueued (now : Ms) (t : State) : Prop :=
  t.tell.statusAt = now + 500 ∧ t.tell.holdoffAt = now + 100 ∧ t.tell.waiting = false ∧
    (t.isSilent = false → t.link.slots.status = some t.report.encode)

/-- R136: a change waits in t while the timers and the STATUS slot of s stand. -/
def ChangeWaits (s t : State) : Prop :=
  t.tell.waiting = true ∧ t.tell.statusAt = s.tell.statusAt ∧ t.tell.holdoffAt = s.tell.holdoffAt ∧
    t.link.slots.status = s.link.slots.status

theorem queueStatus_queued (s : State) : StatusQueued s.now s.queueStatus := by
  rcases queueStatus_cases s with ⟨silent, e⟩ | ⟨_, e⟩ <;> rw [e]
  · exact ⟨rfl, rfl, rfl, fun speaks => absurd (silent.symm.trans speaks) (by decide)⟩
  · exact ⟨rfl, rfl, rfl, fun _ => rfl⟩

/-- R136, R155: a change noted queues a STATUS where the holdoff has run out, at the moment of the timer's STATUS, and
where it is folded; elsewhere it waits. -/
theorem announce_untold {s u : State} (h : Untold s.teller u.teller) (changed : u.news ≠ s.news) :
    ((s.tell.holdoffAt ≤ s.now ∨ s.tell.expiredAt = some s.now ∨ s.teller.folds u.teller) ∧
        StatusQueued s.now (announce s u)) ∨
      (s.now < s.tell.holdoffAt ∧ s.tell.expiredAt ≠ some s.now ∧ ¬ s.teller.folds u.teller) ∧
        ChangeWaits s (announce s u) := by
  have now : u.now = s.now := h.now
  have expired : u.tell.expiredAt = s.tell.expiredAt := h.expiredAt
  rw [announce_change changed]
  rcases noteChange_cases u with ⟨due, e⟩ | ⟨later, unexpired, e⟩ <;> rw [e]
  · refine .inl ⟨?_, now ▸ queueStatus_queued u⟩
    by_cases folds : s.teller.folds u.teller
    · exact .inr (.inr folds)
    · have holdoff : u.tell.holdoffAt = s.tell.holdoffAt := h.runs folds
      rw [holdoff, now, expired] at due
      exact due.imp id .inl
  · have apart : ¬ s.teller.folds u.teller := by
      intro folds
      have ended : u.tell.holdoffAt = s.now := h.folded folds
      rw [ended, now] at later
      exact absurd later (Nat.lt_irrefl _)
    have holdoff : u.tell.holdoffAt = s.tell.holdoffAt := h.runs apart
    rw [holdoff, now] at later
    rw [expired, now] at unexpired
    exact .inr ⟨⟨later, unexpired, apart⟩, rfl, h.statusAt, holdoff, h.status⟩

/-! ## Every row -/

/-- R136: a row tells nothing, or notes its change after all its other effects (log entry 8). -/
def Tells (s t : State) : Prop := t.news = s.news ∨ ∃ u, Untold s.teller u.teller ∧ t = announce s u

/-- A row that notes its change. -/
theorem Tells.noted {s u : State} (h : Untold s.teller u.teller) : Tells s (announce s u) := .inr ⟨u, h, rfl⟩

/-- A row that acts only where its condition holds. -/
theorem Tells.ite {s t : State} {p : Prop} [Decidable p] (h : Tells s t) : Tells s (if p then t else s) := by
  split
  · exact h
  · exact .inl rfl

/-- R136: every row but the two that reset the station. -/
theorem exec_tells (i : Instr) (s : State) (reset : i ≠ .startUpReset) (restart : i ≠ .restart) :
    ∃ t, exec i s = .next t ∧ Tells s t := by
  cases i with
  | startUpReset => exact absurd rfl reset
  | restart => exact absurd rfl restart
  -- The rows that note a change.
  | supplyConversionEnd v =>
    refine ⟨_, rfl, ?_⟩
    split
    · exact .noted (.same ((release_teller _).trans (coastEdge_teller _ _)))
    all_goals exact .inl rfl
  | voltageReConversionEnd v =>
    refine ⟨_, rfl, ?_⟩
    split
    · exact .noted (.same ((release_teller _).trans (confirmEdge_teller _ _ _)))
    all_goals exact .inl rfl
  | takenForJudgement c =>
    refine ⟨_, rfl, ?_⟩
    split
    · exact .noted (.same (judge_teller _ _ _))
    · exact .inl rfl
  | learnDeadline c => exact ⟨_, rfl, .ite (.noted (.same rfl))⟩
  | intentDebounce line =>
    exact ⟨_, rfl, .ite (.noted (.same ((coastEdge_teller _ _).trans (epochChange_teller _))))⟩
  | stalenessTimer => exact ⟨_, rfl, .ite (.noted (.same rfl))⟩
  | commandTelegram h p => exact ⟨_, rfl, .noted (arrive_untold (takeCommand_untold h) _ _ _)⟩
  | learnTelegram h p =>
    refine ⟨_, rfl, .noted (arrive_untold (fun s m => ?_) _ _ _)⟩
    split <;> exact .same rfl
  | headClashDeadline =>
    have ended := (clashEnded_untold s).coastEdge s
    refine ⟨_, rfl, .ite (.noted ?_)⟩
    split
    · rw [(headClashInput_listOnly _ _).teller]
      exact ended
    · exact ended
  | burstEnd =>
    refine ⟨_, rfl, ?_⟩
    split
    · exact .inl rfl
    · exact .noted (.same (setRank_teller _ _))
  | rankSilenceDeadline => exact ⟨_, rfl, .ite (.noted (.same (setRank_teller _ _)))⟩
  -- The rows that write a circuit and tell nothing of it.
  | pairEnd v i =>
    refine ⟨_, rfl, ?_⟩
    split
    · exact .inl ((afterPair_news _ _).trans (takeSample_news _ _ _ _ _))
    all_goals exact .inl rfl
  | missedFlash c =>
    exact ⟨_, rfl, .inl (ite_news ((reevaluatePeriod_news _ _).trans (setC_news (missFlash_news _ _ _))))⟩
  | silenceDeadline c => exact ⟨_, rfl, .inl (ite_news (setC_news (silence_news _ _)))⟩
  | lingerEnd c =>
    exact ⟨_, rfl, .inl (ite_news ((reevaluatePeriod_news _ _).trans (setC_news (closeForMode_news _ _))))⟩
  | windowClose c | heldOnClose c =>
    refine ⟨_, rfl, .inl ?_⟩
    split
    · exact setC_news (push_news _ _)
    · rfl
  | storeWriteEnd readback =>
    refine ⟨_, rfl, .inl ?_⟩
    split
    · exact endWrite_news _ _ _
    · rfl
  | storeConfig block => exact ⟨_, rfl, .inl (atRelease_news (storeConfig_news block) s)⟩
  -- The converter, the timers, the telegrams and the roster.
  | scanStep => exact ⟨_, rfl, .inl (ite_news (arbitrate_news _))⟩
  | spotPairEnd v i =>
    refine ⟨_, rfl, .inl ?_⟩
    split
    · exact (release_news _).trans (takeSpotPair_news _ _ _ _)
    all_goals rfl
  | reSendTimer => exact ⟨_, rfl, .inl (ite_news (queueCommand_news s))⟩
  | statusTimer => exact ⟨_, rfl, .inl (ite_news (queueStatus_news _))⟩
  | holdoff => exact ⟨_, rfl, .inl (ite_news (queueStatus_news s))⟩
  | queryTelegram h p =>
    exact ⟨_, rfl, .inl (arrive_news (fun _ _ => ite_news (startReading_news _ _ _)) _ _ _)⟩
  | readingTelegram h p =>
    exact ⟨_, rfl, .inl (arrive_news (fun _ _ => ite_news (takeReading_news _ _ _ _ _)) _ _ _)⟩
  | statusTelegram h p => exact ⟨_, rfl, .inl (arrive_news (fun s rep => takeStatus_news s h rep) _ _ _)⟩
  | rosterExpiry place =>
    refine ⟨_, rfl, .inl ?_⟩
    split
    · rfl
    · split
      · exact expireSlot_news _ _ _
      · exact expireUnplaced_news _ _ _
  | learnTrackerDeadline serial => exact ⟨_, rfl, .inl (ite_news (untrack_news _ _ _))⟩
  | queryDeadline =>
    refine ⟨_, rfl, .inl ?_⟩
    split
    · rfl
    · exact (raise_listOnly _ _).news
  | completion =>
    refine ⟨_, rfl, .inl ?_⟩
    split
    · exact complete_news _ _
    all_goals rfl
  -- Rows that write fields of the link, the rank line, WARN or the clocks, each under its condition.
  | candidateStart _ _ _ _ | badTelegram _ | warnBlinkHalf | trainSeconds | unlistedDeadline | aloneTimer | sendAttempt _
  | yieldLine _ | driveFault _ | cutOff _ | cutOffRecovery _ | lineStuck _ | lineStuckHoldEnd _ | rearBurstStart
  | rearPulse | frontHighStretch _ | frameStart =>
    refine ⟨_, rfl, .inl ?_⟩
    repeat' split
    all_goals rfl
  -- The requests of the port.
  | badFrame | unknown _ | status | tallies => exact ⟨_, rfl, .inl (atRelease_news (fun _ => reply_news _ _ _) s)⟩
  | event => exact ⟨_, rfl, .inl (atRelease_news (headOnly_news popEvent_news) s)⟩
  | entry index => exact ⟨_, rfl, .inl (atRelease_news (headOnly_news (readEntry_news index)) s)⟩
  | ack index serial => exact ⟨_, rfl, .inl (atRelease_news (headOnly_news (ack_news index serial)) s)⟩
  | ackAll => exact ⟨_, rfl, .inl (atRelease_news (headOnly_news ackAll_news) s)⟩
  | clearFlags mask => exact ⟨_, rfl, .inl (atRelease_news (headOnly_news (clearFlags_news mask)) s)⟩
  | learn stations circuits =>
    exact ⟨_, rfl, .inl (atRelease_news (headOnly_news (requestLearn_news stations circuits)) s)⟩
  | spot rank circuit =>
    refine ⟨_, rfl, .inl (atRelease_news (headOnly_news fun s => ?_) s)⟩
    split
    · split
      · exact requestSpot_news _ _ _
      · rfl
    · rfl
  | spotResult => exact ⟨_, rfl, .inl (atRelease_news (headOnly_news fun _ => reply_news _ _ _) s)⟩
  | roster _ | localRead _ =>
    refine ⟨_, rfl, .inl (atRelease_news (fun s => ?_) s)⟩
    split <;> rfl

/-- Settles O20: a row whose change is told notes it after all its other effects (`exec_tells`), and noting it queues a
STATUS or leaves the change waiting (`announce_untold`). -/
theorem changeQueuesStatus : Obligations.ChangeQueuesStatus := by
  intro i s t reset restart e changed queued waits begins
  obtain ⟨v, ev, told⟩ := exec_tells i s reset restart
  cases ev.symm.trans e
  rcases told with same | ⟨u, untold, rfl⟩
  · exact absurd same changed
  rw [announce_news] at changed
  have clash : (announce s u).headClashAt = u.headClashAt := by rw [announce_frame]
  have folds : s.teller.folds u.teller ↔ begins ∧ s.tell.clashEnd = some s.now ∧ s.tell.waiting = false := by
    show _ ↔ (_ ∧ (announce s u).headClashAt ≠ none) ∧ _
    rw [clash, and_assoc]
    exact Iff.rfl
  have noted : (s.tell.holdoffAt ≤ s.now ∨ s.tell.expiredAt = some s.now ∨ s.teller.folds u.teller) ∧ queued ∨
      (s.now < s.tell.holdoffAt ∧ s.tell.expiredAt ≠ some s.now ∧ ¬ s.teller.folds u.teller) ∧ waits :=
    announce_untold untold changed
  clear_value queued waits begins
  rw [folds] at noted
  rcases noted with ⟨due, queues⟩ | ⟨⟨later, unexpired, apart⟩, waiting⟩
  · have fold (later : s.now < s.tell.holdoffAt) (unexpired : s.tell.expiredAt ≠ some s.now) :
        begins ∧ s.tell.clashEnd = some s.now ∧ s.tell.waiting = false :=
      (due.resolve_left (Nat.not_le_of_lt later)).resolve_left unexpired
    refine ⟨fun _ => queues, fun later unexpired noEnd => ?_, fun _ _ => queues,
      fun later unexpired _ => ⟨fun _ _ => queues, fun alone => ?_⟩⟩
    · obtain ⟨_, ended, _⟩ := fold later unexpired
      exact absurd ended noEnd
    · obtain ⟨clashes, _, idle⟩ := fold later unexpired
      rcases alone with calm | busy
      · exact absurd clashes calm
      · cases idle.symm.trans busy
  · exact ⟨fun past => absurd past (Nat.not_le_of_lt later), fun _ _ _ => waiting,
      fun _ expired => absurd expired unexpired,
      fun _ _ ended => ⟨fun clashes idle => absurd ⟨clashes, ended, idle⟩ apart, fun _ => waiting⟩⟩

end Sys2Proof.Machine
end

section
/-! SUPPORT. A lamp sample and what it teaches (R101, R103, R104): the run of accepted samples, and where the write of
an adopted reference waits (R109). -/

namespace Sys2Proof.Machine

/-! ## The waiting writes -/

/-- R109: a circuit's reference write waits. -/
theorem anyWaits_iff (queue : List RefWrite) (c : Circ) :
    queue.any (·.circuit == c) = true ↔ ∃ q ∈ queue, q.circuit = c := by
  simp only [List.any_eq_true, beq_iff_eq]

/-- R109: a reference write of a circuit that has none waiting goes to the end of the queue. -/
theorem add_absent {w : WriteEngine} {c : Circ} (absent : ∀ q ∈ w.queue, q.circuit ≠ c) (iref : Nat) :
    w.add c iref = { w with queue := w.queue ++ [⟨c, iref⟩] } :=
  if_neg fun waits =>
    have ⟨q, mem, own⟩ := (anyWaits_iff _ _).1 waits
    absent q mem own

/-- R109: a reference write takes the place of the one of its circuit that waits. -/
theorem add_waiting {w : WriteEngine} {c : Circ} {pre post : List RefWrite} {q : RefWrite}
    (queue : w.queue = pre ++ q :: post) (own : q.circuit = c) (others : ∀ y ∈ pre ++ post, y.circuit ≠ c) (iref : Nat) :
    w.add c iref = { w with queue := pre ++ ⟨c, iref⟩ :: post } := by
  have waits : w.queue.any (·.circuit == c) = true := (anyWaits_iff _ _).2 ⟨q, by simp [queue], own⟩
  have stay (l : List RefWrite) (sub : l ⊆ pre ++ post) : l.map (fun y => if y.circuit = c then ⟨c, iref⟩ else y) = l :=
    (List.map_congr_left fun y mem => if_neg (others y (sub mem))).trans (List.map_id l)
  unfold WriteEngine.add
  rw [if_pos waits, queue, List.map_append, List.map_cons, if_pos own, stay pre (List.subset_append_left _ _),
    stay post (List.subset_append_right _ _)]

/-! ## The run of accepted samples -/

/-- R101: a sample agrees with none accepted before it, or lies within one eighth of the mean. -/
theorem agrees_iff (u : RefUnit) (x : Nat) :
    u.agrees x = true ↔ u.k = 0 ∨ absDiff x ((u.sum + u.k / 2) / u.k) * 8 ≤ (u.sum + u.k / 2) / u.k := by
  simp only [RefUnit.agrees, Bool.or_eq_true, decide_eq_true_eq]

/-- R101: a circuit that is not LEARNING ignores a sample. -/
theorem handSample_ignored {s : State} {c : Circ} (idle : s.circuits[c].ref.learn ≠ .learning) (x : Nat) :
    s.handSample c x = s := if_neg idle

/-- R101: the branches of a sample handed to a LEARNING circuit. -/
theorem handSample_learning {s : State} {c : Circ} (learning : s.circuits[c].ref.learn = .learning) (x : Nat) :
    s.handSample c x =
      if s.circuits[c].ref.agrees x = true then
        if 8 ≤ s.circuits[c].ref.k + 1 then s.finishLearning c (s.circuits[c].ref.sum + x)
        else s.setC c { s.circuits[c] with ref := { s.circuits[c].ref with
          k := s.circuits[c].ref.k + 1, sum := s.circuits[c].ref.sum + x } }
      else s.setC c { s.circuits[c] with ref := { s.circuits[c].ref with k := 1, sum := x } } := if_pos learning

/-- R98: the state a failure returns to, by whether a reference was learned before. -/
theorem previous_eq (u : RefUnit) : u.previous = if u.iref = none then .unlearned else .learned := by
  unfold RefUnit.previous
  cases u.iref <;> rfl

/-- Settles O33: whether the sample agrees, whether it is the eighth, and whether its Iref is adopted; an adopted one
meets a busy engine, whose queue holds the circuit or not, or a free one. -/
theorem lampSamplesTeachReference : Obligations.LampSamplesTeachReference := by
  intro c x s k u mean agrees iref nominal inWindow taught adopted
  have agreed : u.agrees x = true ↔ agrees := agrees_iff u x
  have adopts : k.cfg.adopts iref = true ↔ inWindow := by
    rw [adopts_iff]
    exact ⟨fun ⟨one, top, low, high⟩ => ⟨low, high, one, top⟩, fun ⟨low, high, one, top⟩ => ⟨one, top, low, high⟩⟩
  have eighth (learning : u.learn = .learning) (ok : agrees) (last : 7 ≤ u.k) :
      s.handSample c x = s.finishLearning c (u.sum + x) := by
    rw [handSample_learning learning, if_pos (agreed.2 ok), if_pos (Nat.succ_le_succ last)]
  refine ⟨fun idle => handSample_ignored idle x, fun learning off => ?_, fun learning ok few => ?_,
    fun learning ok last out => ?_, fun learning ok last fits => ?_⟩
  · rw [handSample_learning learning, if_neg (mt agreed.1 off)]
  · rw [handSample_learning learning, if_pos (agreed.2 ok), if_neg (Nat.not_le_of_lt (Nat.succ_lt_succ few))]
  · rw [eighth learning ok last, finishLearning_fails (mt adopts.1 out), ← previous_eq]
    rfl
  · rw [eighth learning ok last]
    refine ⟨fun w writing absent => ?_, fun w pre q post writing queue own others => ?_, fun free => ?_⟩
    · have busy : s.writes.current ≠ none := by rw [writing]; exact nofun
      rw [finishLearning_waits (adopts.2 fits) busy, add_absent absent]
      rfl
    · have busy : s.writes.current ≠ none := by rw [writing]; exact nofun
      rw [finishLearning_waits (adopts.2 fits) busy, add_waiting queue own others]
      rfl
    · rw [finishLearning_starts (adopts.2 fits) free]
      rfl

end Sys2Proof.Machine
end

section
/-! SUPPORT. LEARN on a station (R99, R100) and the end of a learning that was not lit (R105). -/

namespace Sys2Proof.Machine

/-- R99: the conditions under which a LEARN is acted on. -/
theorem actsOnLearn_iff (s : State) (h : RxHeader) (e stations : Byte) :
    s.actsOnLearn h e stations = true ↔
      s.isHead = false ∧ h.head = true ∧ (∀ x, s.roster.slots[(0 : Rank)] = some x → x.serial = h.serial) ∧
        (∃ r, s.rank.state = .ranked r ∧ stations.getLsbD r.val = true) ∧ s.actedEpoch ≠ some e := by
  unfold State.actsOnLearn
  cases s.rank.state with
  | ranked r => simp [RankState.rank?, eligible_iff, and_assoc]
  | acquiring | unranked _ => simp [RankState.rank?]

/-- R123: a telegram within its ranges is consumed where it is delivered. -/
theorem arrive_delivered {α : Type} {s : State} (delivers : s.link.receiver.delivers = true) (k : TKind) (content : α)
    (consume : State → α → State) : s.arrive k (some content) consume = consume s.heard content := if_pos delivers

/-- R123: a delivered LEARN is acted on or discarded, and what changed is noted. -/
theorem learnTelegram_eq {s : State} (delivers : s.link.receiver.delivers = true) (h : RxHeader) (p : BitVec 24) :
    exec (.learnTelegram h p) s = .next (announce s
      (if s.heard.actsOnLearn h (p.extractLsb' 0 8) (p.extractLsb' 8 8) = true then
        s.heard.actOnLearn (p.extractLsb' 0 8) (p.extractLsb' 16 8) else s.heard)) :=
  congrArg (fun t => Host.Outcome.next (announce s t)) (arrive_delivered delivers .learn p _)

/-- R100: a LEARN acted on starts the masked lamp circuits. -/
theorem actOnLearn_circuit (s : State) (e circuits : Byte) (c : Circ) :
    (s.actOnLearn e circuits).circuits[c] =
      if circuits.getLsbD c.val = true ∧ (s.circuits[c].cfg.kind = .incandescent ∨ s.circuits[c].cfg.kind = .led) then
        { s.circuits[c] with ref := s.circuits[c].ref.enter e s.now } else s.circuits[c] := by
  have entered : (s.actOnLearn e circuits).circuits[c] = _ := eight_get _ c
  rw [entered]
  simp only [Bool.and_eq_true, isLamp_iff]

/-- R105: the row of a learn deadline that is reached. -/
theorem learnDeadline_eq {s : State} {c : Circ} {at_ : Ms} (learning : s.circuits[c].ref.learn = .learning)
    (timer : s.circuits[c].ref.deadline = some at_) (past : at_ ≤ s.now) :
    exec (.learnDeadline c) s = .next (announce s
      (s.setC c { s.circuits[c] with ref := s.circuits[c].ref.fail .failedNotLit })) := by
  have due : s.circuits[c].learnDue s.now = true := by
    rw [Circuit.learnDue, learning, reached_some timer past]
    rfl
  simp only [exec, execLearnDeadline]
  rw [if_pos due]

/-- Settles O41: a LEARN by R99's test (`actsOnLearn_iff`) and R100's effect on each circuit, a deadline by the failure
of its circuit; the change noted reaches the link and the telling alone (`announce_frame`). -/
theorem learnStartsAndExpires : Obligations.LearnStartsAndExpires := by
  refine fun s => ⟨fun h p delivers => ?_, fun c at_ learning timer past => ?_⟩
  · intro e stations circuits acts
    have test : s.heard.actsOnLearn h e stations = true ↔ acts := actsOnLearn_iff s.heard h e stations
    refine ⟨_, learnTelegram_eq delivers h p, ?_, fun ignored => ?_, fun acting => ?_⟩
    · rw [announce_frame]
      split <;> rfl
    · rw [announce_frame, if_neg (mt test.1 ignored)]
      exact ⟨rfl, rfl⟩
    · rw [announce_frame, if_pos (test.2 acting)]
      refine ⟨rfl, fun c => ?_⟩
      have circuit := actOnLearn_circuit s.heard e circuits c
      exact ⟨fun chosen => circuit.trans (if_pos chosen), fun other => circuit.trans (if_neg other)⟩
  · refine ⟨_, learnDeadline_eq learning timer past, ?_⟩
    rw [announce_frame]
    exact ⟨rfl, fun d other => put_other _ _ other, put_same _ _ _⟩

end Sys2Proof.Machine
end

section
/-! SUPPORT. STORE_CONFIG and STORE_WRITE_END (R109, R110, R112): which write an engine starts, the row of R112 that
applies at the release of a frame, and what a write that ends reports. -/

namespace Sys2Proof.Machine

/-! ## The write that starts -/

/-- R109: a free engine starts the waiting block first. -/
theorem startWrite_config {s : State} {block : List Byte} (free : s.writes.current = none)
    (slot : s.writes.configSlot = some block) :
    s.startWrite = { s with writes := ⟨s.writes.queue, none, some ⟨.config, withCheck block, s.now + 10⟩⟩ } := by
  simp only [State.startWrite, free, slot]

/-- R109: a free engine without a waiting block starts the oldest waiting reference. -/
theorem startWrite_reference {s : State} {q : RefWrite} {rest : List RefWrite} (free : s.writes.current = none)
    (slot : s.writes.configSlot = none) (queue : s.writes.queue = q :: rest) :
    s.startWrite = State.setSave
      { s with writes := ⟨rest, none, some ⟨.reference q.circuit, withCheck (refContent q.iref), s.now + 10⟩⟩ }
      q.circuit .writing := by
  simp only [State.startWrite, free, slot, queue]

/-- R109: an engine for which nothing waits starts nothing. -/
theorem startWrite_idle {s : State} (slot : s.writes.configSlot = none) (queue : s.writes.queue = []) :
    s.startWrite = s := by
  unfold State.startWrite
  rw [slot, queue]
  split <;> rfl

/-- R109: the start of a write reaches the engine and the circuits alone. -/
theorem startWrite_frame (s : State) :
    s.startWrite = { s with writes := s.startWrite.writes, circuits := s.startWrite.circuits } := by
  rcases startWrite_cases s with ⟨_, e⟩ | ⟨_, _, _, e⟩ | ⟨_, _, _, _, _, e⟩ | ⟨_, e⟩ <;> rw [e]
  rfl

/-! ## STORE CONFIG -/

/-- R112: a block past the first 10 s is TOO LATE. -/
theorem storeConfig_late {s : State} (late : 10000 ≤ s.count) (block : List Byte) :
    s.storeConfig block = s.reply codeTooLate [] := if_pos late

/-- R112: a block in an enabled LOW SUPPLY is refused. -/
theorem storeConfig_lowSupply {s : State} (early : ¬ 10000 ≤ s.count) (low : s.lowSupply.active = true)
    (enabled : s.cfg.coastMask.lowSupply = true) (block : List Byte) :
    s.storeConfig block = s.reply codeLowSupply [] :=
  (if_neg early).trans (if_pos (by rw [low, enabled]; rfl))

/-- R112: any other block waits for the engine, and its reply is in progress. -/
theorem storeConfig_accepted {s : State} (early : ¬ 10000 ≤ s.count)
    (supplied : s.lowSupply.active = false ∨ s.cfg.coastMask.lowSupply = false) (block : List Byte) :
    s.storeConfig block = State.startWrite { s with
      writes := { s.writes with configSlot := some block }, port := { s.port with slot := .inProgress } } :=
  (if_neg early).trans (if_neg (by rcases supplied with h | h <;> simp [h]))

/-- R109, R112: a free engine writes an accepted block at once. -/
theorem storeConfig_starts {s : State} (early : ¬ 10000 ≤ s.count)
    (supplied : s.lowSupply.active = false ∨ s.cfg.coastMask.lowSupply = false) (free : s.writes.current = none)
    (block : List Byte) :
    s.storeConfig block = { s with
      writes := ⟨s.writes.queue, none, some ⟨.config, withCheck block, s.now + 10⟩⟩
      port := { s.port with slot := .inProgress } } :=
  (storeConfig_accepted early supplied block).trans (startWrite_config free rfl)

/-- R109, R112: an accepted block waits for an engine that is busy. -/
theorem storeConfig_waits {s : State} (early : ¬ 10000 ≤ s.count)
    (supplied : s.lowSupply.active = false ∨ s.cfg.coastMask.lowSupply = false) (busy : s.writes.current ≠ none)
    (block : List Byte) :
    s.storeConfig block = { s with
      writes := { s.writes with configSlot := some block }, port := { s.port with slot := .inProgress } } :=
  (storeConfig_accepted early supplied block).trans (startWrite_busy busy)

/-- R198: the station once a frame that was acted on has ended, with what its slot still holds. -/
def State.released (s : State) (slot : ReplySlot) : State := { s with port := ⟨slot, none, s.port.out⟩ }

/-- R198: a frame that was not answered NOT READY is acted on at its release. -/
theorem atRelease_acts {s : State} (framed : s.port.frame = some .reply ∨ s.port.frame = some .noRequest)
    (act : State → State) : ∃ slot, s.atRelease act = act (s.released slot) := by
  rcases atRelease_cases s act with ⟨unframed, _⟩ | ⟨refused, _⟩ | ⟨_, e⟩ | ⟨_, e⟩
  · simp [unframed] at framed
  · simp [refused] at framed
  · exact ⟨_, e⟩
  · exact ⟨_, e⟩

/-! ## STORE_WRITE_END -/

/-- R110: the row of a write that has taken its 10 ms. -/
theorem storeWriteEnd_eq {s : State} {w : StoreWrite} (writing : s.writes.current = some w) (past : w.finish ≤ s.now)
    (back : List Byte) : exec (.storeWriteEnd back) s = .next (s.endWrite w back) := by
  have ended : s.endedWrite = some w := by simp [State.endedWrite, writing, past]
  simp only [exec, execStoreWriteEnd, ended]

/-- R110: a report reaches the circuits and the port alone. -/
theorem reportWrite_frame (s : State) (item : StoreItem) (ok : Bool) :
    s.reportWrite item ok =
      { s with circuits := (s.reportWrite item ok).circuits, port := (s.reportWrite item ok).port } := by
  cases item with
  | config => rfl
  | reference c =>
    unfold State.reportWrite
    dsimp only
    split <;> rfl

/-- R110: a reference that has been written saves its circuit or fails it, unless a later one of the circuit waits. -/
theorem reportWrite_circuit (s : State) (item : StoreItem) (ok : Bool) (c : Circ) :
    (s.reportWrite item ok).circuits[c] =
      if item = .reference c ∧ ¬ ∃ q ∈ s.writes.queue, q.circuit = c then
        { s.circuits[c] with ref := { s.circuits[c].ref with save := if ok then .saved else .failed } }
      else s.circuits[c] := by
  cases item with
  | config => exact (if_neg nofun).symm
  | reference d =>
    unfold State.reportWrite
    dsimp only
    by_cases waits : ∃ q ∈ s.writes.queue, q.circuit = d
    · rw [if_pos ((anyWaits_iff _ _).2 waits), if_neg]
      rintro ⟨⟨⟩, free⟩
      exact free waits
    · rw [if_neg (mt (anyWaits_iff _ _).1 waits), State.setSave, setC_circuit]
      by_cases own : c = d
      · subst own
        exact (if_pos rfl).trans (if_pos ⟨rfl, waits⟩).symm
      · rw [if_neg own, if_neg]
        rintro ⟨⟨⟩, _⟩
        exact own rfl

/-- R110: a reference that has been written answers no request. -/
theorem reportWrite_port (s : State) (c : Circ) (ok : Bool) : (s.reportWrite (.reference c) ok).port = s.port := by
  unfold State.reportWrite
  dsimp only
  split <;> rfl

/-- R110: the station once a write has ended and its result is reported, with the engine free. -/
def State.written (s : State) (w : StoreWrite) (back : List Byte) : State :=
  { State.reportWrite { s with
      store := s.store.write w.item back
      flags := if back == w.bytes then s.flags else { s.flags with storeFault := true } }
    w.item (back == w.bytes) with
    writes := { s.writes with current := none } }

/-- R109, R110: then the engine starts the next write. -/
theorem endWrite_starts (s : State) (w : StoreWrite) (back : List Byte) :
    s.endWrite w back = (s.written w back).startWrite := endWrite_eq s w back

theorem written_frame (s : State) (w : StoreWrite) (back : List Byte) :
    s.written w back = { s with
      store := s.store.write w.item back
      writes := { s.writes with current := none }
      flags := if back = w.bytes then s.flags else { s.flags with storeFault := true }
      circuits := (s.written w back).circuits
      port := (s.written w back).port } := by
  unfold State.written
  rw [reportWrite_frame]
  simp only [beq_iff_eq]

/-- R110: the save state of the circuit written. -/
theorem written_circuit (s : State) (w : StoreWrite) (back : List Byte) (c : Circ) :
    (s.written w back).circuits[c] =
      if w.item = .reference c ∧ ¬ ∃ q ∈ s.writes.queue, q.circuit = c then
        { s.circuits[c] with ref := { s.circuits[c].ref with save := if back = w.bytes then .saved else .failed } }
      else s.circuits[c] := by
  refine (reportWrite_circuit _ w.item (back == w.bytes) c).trans ?_
  simp only [beq_iff_eq]

/-- R110: the reply of a block written. -/
theorem written_port_config {w : StoreWrite} (item : w.item = .config) (s : State) (back : List Byte) :
    (s.written w back).port =
      { s.port with slot := .finished [if back = w.bytes then codeDone else codeFailed, 0x00#8] } := by
  unfold State.written
  rw [item]
  simp only [State.reportWrite, beq_iff_eq]
  rfl

theorem written_port_reference {w : StoreWrite} {c : Circ} (item : w.item = .reference c) (s : State)
    (back : List Byte) : (s.written w back).port = s.port := by
  unfold State.written
  rw [item]
  exact reportWrite_port _ _ _

/-- Settles O58: STORE CONFIG row by row (`atRelease_acts`); a write that ends by what it leaves (`written_frame`), and
then by the write that the engine starts. -/
theorem storeWritesStartAndEnd : Obligations.StoreWritesStartAndEnd := by
  refine fun block back s => ⟨fun framed => ?_, fun w writing past => ?_⟩
  · intro late
    obtain ⟨slot, release⟩ := atRelease_acts framed (State.storeConfig block)
    have row : exec (.storeConfig block) s = .next ((s.released slot).storeConfig block) :=
      congrArg Host.Outcome.next release
    rw [row]
    refine ⟨fun past => ?_, fun early low enabled => ?_, fun early supplied free => ?_,
      fun w early supplied writing => ?_⟩
    · rw [storeConfig_late (s := s.released slot) past]
      rfl
    · rw [storeConfig_lowSupply (s := s.released slot) early low enabled]
      rfl
    · rw [storeConfig_starts (s := s.released slot) early supplied free]
      rfl
    · have busy : s.writes.current ≠ none := by rw [writing]; exact nofun
      rw [storeConfig_waits (s := s.released slot) early supplied busy]
      rfl
  · intro fault waits saved ended
    have left (c : Circ) : (s.written w back).circuits[c] = ended c := written_circuit s w back c
    have now : (s.written w back).now = s.now := by rw [written_frame]; rfl
    refine ⟨_, (storeWriteEnd_eq writing past back).trans (congrArg _ (endWrite_starts s w back)), ?_, ?_,
      fun item => ⟨?_, ?_⟩, fun c item => ⟨?_, ?_, fun d other => ?_, ?_⟩, fun x slot => ?_,
      fun q rest slot queue => ?_, fun slot queue => ?_⟩
    · rw [startWrite_frame, written_frame]
    · rw [startWrite_flags, written_frame]
    · rw [startWrite_store, written_frame, item]
      rfl
    · rw [startWrite_port, written_port_config item]
      rfl
    · rw [startWrite_store, written_frame, item]
      rfl
    · rw [startWrite_store, written_frame, item]
      exact put_same _ _ _
    · rw [startWrite_store, written_frame, item]
      exact put_other _ _ other
    · rw [startWrite_port, written_port_reference item]
    · rw [startWrite_config (s := s.written w back) rfl slot, now]
      exact ⟨rfl, left⟩
    · rw [startWrite_reference (s := s.written w back) rfl slot queue, now]
      refine ⟨rfl, ?_, fun c other => (put_other _ _ other).trans (left c)⟩
      have stays : (s.written w back).circuits[q.circuit] = s.circuits[q.circuit] :=
        (left _).trans (if_neg fun both => both.2 ⟨q, by rw [queue]; exact List.mem_cons_self, rfl⟩)
      exact (put_same _ _ _).trans
        (congrArg (fun k : Circuit => { k with ref := { k.ref with save := .writing } }) stays)
    · rw [startWrite_idle (s := s.written w back) slot queue]
      refine ⟨?_, left⟩
      show (⟨s.writes.queue, s.writes.configSlot, none⟩ : WriteEngine) = _
      rw [slot, queue]

end Sys2Proof.Machine
end

section
/-! SUPPORT. Words written out from the spec (R117, R216, R218, R220), and a telegram's characters read back (R115 to
R118, R121). -/

namespace Sys2Proof

/-- Settles O7: each word by evaluation; the two headers that were formed by `header_fields`. -/
theorem writtenOutWordsDecode : Obligations.WrittenOutWordsDecode := by
  have header : headerByte .status 2 false false = 0x11#8 := by decide
  obtain ⟨kind, rank, _, _⟩ := header_fields .status 2 false false
  rw [header] at kind rank
  exact ⟨by decide, by decide, header, kind, rank, by decide, by decide, by decide, by decide, by decide, by decide,
    by decide, by decide⟩

/-! ## The tests of R121 on sound characters -/

/-- R121: characters read one after another, and the sound characters after them. -/
theorem readChars_append {bs : List Byte} {n : Nat} (len : bs.length = n) (rest : List Byte) :
    readChars n (soundChars (bs ++ rest)) = .ok (bs, soundChars rest) := by
  subst len
  have split : soundChars (bs ++ rest) = soundChars bs ++ soundChars rest := List.map_append
  rw [split, readChars_sound]

/-- R118, R121: a payload of its kind's length, followed by its check, is good. -/
theorem rxPayload_sound {k : TKind} {payload : List Byte} (len : payload.length = k.payloadLength) (h : RxHeader)
    (hdr : List Byte) :
    rxPayload k h hdr (soundChars (payload ++ bytesLE 2 (crc (hdr ++ payload)).toNat)) = .good k h payload := by
  have check := readChars_append (bytesLE_length 2 (crc (hdr ++ payload)).toNat) []
  rw [List.append_nil] at check
  unfold rxPayload
  rw [readChars_append len]
  dsimp only
  rw [check]
  exact if_pos rfl

/-- R117, R121: a serial and the length of the kind are read, and the telegram is what its payload makes of it. -/
theorem rxSerial_sound (k : TKind) (hb : Byte) (serial : Serial) (rest : List Byte) :
    let field := bytesLE 3 serial.toNat ++ [BitVec.ofNat 8 k.payloadLength]
    rxSerial k hb (soundChars (field ++ rest)) =
      rxPayload k ⟨headerRank hb, headerUnranked hb, headerHead hb, serial⟩ (hb :: field) (soundChars rest) := by
  intro field
  have len : field.length = 4 := by simp [field, bytesLE_length]
  have length : (field.getD 3 0).toNat = k.payloadLength := by cases k <;> rfl
  have read : BitVec.ofNat 24 (natLE (field.take 3)) = serial := by
    have front : field.take 3 = bytesLE 3 serial.toNat := List.take_left' (bytesLE_length _ _)
    rw [front, natLE_bytesLE]
    exact (congrArg _ (Nat.mod_eq_of_lt serial.isLt)).trans (by simp)
  unfold rxSerial
  rw [readChars_append len]
  dsimp only
  rw [if_pos length, read]

/-- R117, R118, R121: a telegram that was formed is good, with its kind, header, serial and payload. -/
theorem rxTest_telegramChars {k : TKind} {payload : List Byte} (len : payload.length = k.payloadLength) (h : RxHeader) :
    rxTest (soundChars (telegramChars k h payload)) = .good k h payload := by
  obtain ⟨kind, rank, unranked, head⟩ := header_fields k h.rank h.unranked h.head
  let field := bytesLE 3 h.serial.toNat ++ [BitVec.ofNat 8 k.payloadLength]
  have body : telegramBody k h payload = headerByte k h.rank h.unranked h.head :: field ++ payload := by
    simp [telegramBody, field, len]
  have one (b : Byte) (rest : List Byte) : readChars 1 (soundChars (b :: rest)) = .ok ([b], soundChars rest) :=
    readChars_append (bs := [b]) rfl rest
  unfold rxTest telegramChars
  rw [one]
  dsimp only
  rw [if_pos rfl, one]
  dsimp only
  rw [if_pos rfl, body, List.cons_append, List.cons_append, one]
  dsimp only
  have serial := rxSerial_sound k (headerByte k h.rank h.unranked h.head) h.serial
    (payload ++ bytesLE 2 (crc (headerByte k h.rank h.unranked h.head :: (field ++ payload))).toNat)
  rw [rank, unranked, head] at serial
  replace kind : headerKind ([headerByte k h.rank h.unranked h.head].getD 0 0) = some k := kind
  rw [kind, List.append_assoc]
  exact serial.trans (rxPayload_sound len h _)

/-- R121, R124: the row of a good telegram of this kind, with the number that its payload spells. -/
def TKind.row (k : TKind) (h : RxHeader) (v : Nat) : Instr :=
  match k with
  | .command => .commandTelegram h (BitVec.ofNat 64 v)
  | .learn => .learnTelegram h (BitVec.ofNat 24 v)
  | .query => .queryTelegram h (BitVec.ofNat 24 v)
  | .reading => .readingTelegram h (BitVec.ofNat 104 v)
  | .status => .statusTelegram h (BitVec.ofNat 288 v)

theorem decodeTelegram_good {cs : List RxChar} {k : TKind} {h : RxHeader} {payload : List Byte}
    (good : rxTest cs = .good k h payload) : decodeTelegram cs = k.row h (natLE payload) := by
  unfold decodeTelegram
  rw [good]
  cases k <;> rfl

/-- R117, R118: only a row of a good telegram has characters: its header's and its payload's. -/
theorem encodeTelegram_some {i : Instr} {cs : List RxChar} (encoded : encodeTelegram i = some cs) :
    ∃ k h v, v < 256 ^ k.payloadLength ∧ k.row h v = i ∧
      soundChars (telegramChars k h (bytesLE k.payloadLength v)) = cs := by
  have same {w : Nat} (p : BitVec w) : BitVec.ofNat w p.toNat = p := by simp
  have small {w n : Nat} (p : BitVec w) (width : w = 8 * n) : p.toNat < 256 ^ n := by
    subst width
    exact p.isLt.trans_eq (pow_mul 2 8 n)
  cases i with
  | commandTelegram h p => exact ⟨.command, h, p.toNat, small p rfl, congrArg _ (same p), Option.some.inj encoded⟩
  | learnTelegram h p => exact ⟨.learn, h, p.toNat, small p rfl, congrArg _ (same p), Option.some.inj encoded⟩
  | queryTelegram h p => exact ⟨.query, h, p.toNat, small p rfl, congrArg _ (same p), Option.some.inj encoded⟩
  | readingTelegram h p => exact ⟨.reading, h, p.toNat, small p rfl, congrArg _ (same p), Option.some.inj encoded⟩
  | statusTelegram h p => exact ⟨.status, h, p.toNat, small p rfl, congrArg _ (same p), Option.some.inj encoded⟩
  | _ => cases encoded

/-- Settles O4: a telegram that was formed passes R121's tests (`rxTest_telegramChars`), and its payload spells the
number it was formed of. -/
theorem telegramCharactersReadBack : Obligations.TelegramCharactersReadBack := by
  intro i cs encoded
  obtain ⟨k, h, v, small, rfl, rfl⟩ := encodeTelegram_some encoded
  rw [decodeTelegram_good (rxTest_telegramChars (bytesLE_length _ _) h), natLE_bytesLE, Nat.mod_eq_of_lt small]

end Sys2Proof
end

section
/-! SUPPORT. The transmitter's guards (R130, R133 to R135). -/

namespace Sys2Proof.Machine

/-! ## YIELD, DRIVE_FAULT -/

/-- R130: during an attempt the line is held against the bits of its characters. -/
theorem readBack_sending {s : State} {a : Attempt} (sending : s.link.tx = .sending a) (line : List Bool) :
    s.readBack line = lastDiffers (lineBits a.chars) line := by
  unfold State.readBack
  rw [sending]
  rfl

/-- Settles O48: what is read back is held against the bits driven (`lastDiffers_at`, `lastDiffers_same`). -/
theorem readBackYieldsOrFaults : Obligations.ReadBackYieldsOrFaults := by
  intro a sent rest s sending
  have read (line : List Bool) : s.readBack line = lastDiffers (lineBits a.chars) line := readBack_sending sending line
  refine ⟨congrArg TxState.driven sending, fun bits => ?_, fun bits => ?_, fun bits => ?_⟩
  · have differs : s.readBack (sent ++ [false]) = some true := by rw [read, bits]; exact lastDiffers_at sent rest true
    exact congrArg Host.Outcome.next (if_pos differs)
  · have differs : s.readBack (sent ++ [true]) = some false := by rw [read, bits]; exact lastDiffers_at sent rest false
    exact congrArg Host.Outcome.next (if_pos differs)
  · have same : s.readBack sent = none := by rw [read, bits, lastDiffers_same]
    have neither (b : Bool) : s.readBack sent ≠ some b := by rw [same]; exact nofun
    exact ⟨congrArg Host.Outcome.next (if_neg (neither true)), congrArg Host.Outcome.next (if_neg (neither false))⟩

/-! ## The guards -/

/-- R127: the pending set without a telegram. -/
theorem isEmpty_iff (p : Slots) : p.isEmpty = true ↔ p = ⟨none, none, none, none, none⟩ := by
  obtain ⟨command, learn, query, reading, status⟩ := p
  simp [Slots.isEmpty, and_assoc]

/-- R129, R132: an emptied pending set leaves the transmitter IDLE, any other lets it wait for a gap. -/
theorem rest_eq (p : Slots) : p.rest = if p = ⟨none, none, none, none, none⟩ then .idle else .waitGap := by
  simp only [Slots.rest, isEmpty_iff]

/-- R116, R135: the rate that a stretch is measured at. -/
theorem lineRate_eq {s : State} {r : Rate} (rate : s.link.presence = .alone r ∨ s.link.presence = .joined r ∨
    s.link.presence = .listening ∧ s.cfg.strapRate = r) : s.lineRate = r := by
  unfold State.lineRate
  rcases rate with sends | sends | ⟨sends, strap⟩ <;> rw [sends]
  · rfl
  · rfl
  · exact strap

/-- R133: the guard acts on a driver that it has not cut off. -/
theorem drivable_iff (t : TxState) : t.drivable = true ↔ t ≠ .cutOff ∧ t ≠ .latchedOff := by
  cases t <;> simp [TxState.drivable]

/-- R129: SENDING. -/
theorem isSending_iff (t : TxState) : t.isSending = true ↔ ∃ a, t = .sending a := by
  cases t <;> simp [TxState.isSending]

/-- R133: a first or second cut-off is remembered. -/
theorem cut_early {l : Link} (few : l.cutRecord.length < 2) (now : Ms) :
    l.cut now = { l.letGo with tx := .cutOff, cutRecord := l.cutRecord ++ [now] } := by
  have unlatched : latches l.cutRecord now = false := by
    unfold latches
    split
    next older newer e => simp [e] at few
    · rfl
  have added : addCut l.cutRecord now = l.cutRecord ++ [now] := if_pos few
  simp only [Link.cut, unlatched, added, Bool.false_eq_true, if_false]

/-- R133: a third cut-off within 60000 ms latches the driver off, a later one takes the older one's place. -/
theorem cut_third {l : Link} {x y : Ms} (record : l.cutRecord = [x, y]) (now : Ms) :
    l.cut now = if now ≤ x + 60000 then { l.letGo with tx := .latchedOff, slots := ⟨none, none, none, none, none⟩ }
      else { l.letGo with tx := .cutOff, cutRecord := [y, now] } := by
  simp [Link.cut, record, latches, addCut]

/-- Settles O49: each stretch is held against its bit times at the rate in force (`lineRate_eq`); a cut-off by the
record (`cut_early`, `cut_third`). -/
theorem driverGuardAndLineMonitor : Obligations.DriverGuardAndLineMonitor := by
  intro n r s rate
  have inForce : s.lineRate = r := lineRate_eq rate
  have reached : s.lineRate.reached n 12 = true ↔ 12 * 1000000000 ≤ n * r.bps := by
    rw [inForce]; exact decide_eq_true_iff
  have passed : s.lineRate.passed n 24 = true ↔ 24 * 1000000000 < n * r.bps := by
    rw [inForce]; exact decide_eq_true_iff
  have released (free : ∀ a, s.link.tx ≠ .sending a) : ¬ s.link.tx.isSending = true :=
    fun sends => (isSending_iff _).1 sends |>.elim free
  refine ⟨fun uncut unlatched long => ?_, fun uncut unlatched short => ?_, fun cut rested => ?_, fun other => ?_,
    fun free long => ?_, fun free short => ?_, fun rested => ?_, fun short => ?_⟩
  · refine ⟨{ s with link := s.link.cut s.now, flags := { s.flags with txCutoff := true } }, ?_, rfl, ?_, ?_, ?_⟩
    · exact congrArg Host.Outcome.next ((if_pos ((drivable_iff _).2 ⟨uncut, unlatched⟩)).trans
        (if_pos (reached.2 long)))
    · exact fun few => cut_early few s.now
    · exact fun x y record within => (cut_third record s.now).trans (if_pos within)
    · exact fun x y record late => (cut_third record s.now).trans (if_neg (Nat.not_le_of_lt late))
  · exact congrArg Host.Outcome.next ((if_pos ((drivable_iff _).2 ⟨uncut, unlatched⟩)).trans
      (if_neg fun long => Nat.not_le_of_lt short (reached.1 long)))
  · rw [← rest_eq]
    exact congrArg Host.Outcome.next (if_pos ⟨cut, rested⟩)
  · exact congrArg Host.Outcome.next (if_neg fun ⟨cut, rested⟩ => other.elim (Nat.not_lt_of_le rested) (· cut))
  · exact congrArg Host.Outcome.next ((if_neg (released free)).trans (if_pos (passed.2 long)))
  · exact congrArg Host.Outcome.next ((if_neg (released free)).trans
      (if_neg fun long => Nat.not_lt_of_le short (passed.1 long)))
  · have ended : (s.link.stuckHold && decide (n < 10)) = false := by simp [rested]
    simp only [exec, execLineStuckHoldEnd, ended]
    rfl
  · have held : (s.link.stuckHold && decide (n < 10)) = s.link.stuckHold := by simp [short]
    simp only [exec, execLineStuckHoldEnd, held]
    rfl

end Sys2Proof.Machine
end

section
/-! SUPPORT. SEND_ATTEMPT and COMPLETION (R116, R117, R126 to R129, R132, R209, R211). -/

namespace Sys2Proof.Machine

/-! ## SEND_ATTEMPT -/

/-- R125: the send rate of a station that sends. -/
theorem sendRate_iff (p : Presence) (r : Rate) : p.sendRate = some r ↔ p = .alone r ∨ p = .joined r := by
  cases p <;> simp [Presence.sendRate]

/-- R129: the transmitter waits for a gap. -/
theorem waits_iff (t : TxState) : t.waits = true ↔ t = .waitGap ∨ t = .yielded := by cases t <;> simp [TxState.waits]

/-- R116, R126, R129: an attempt that begins sends the lowest kind, at the send rate. -/
theorem attempt_begins {s : State} {k : TKind} {v : Nat} (lowest : s.link.slots.lowest = some (k, v))
    {r : Rate} {gap : Nat} (rate : s.link.presence = .alone r ∨ s.link.presence = .joined r)
    (quiet : 30 * 1000000000 ≤ gap * r.bps) (free : s.link.stuckHold = false) (waits : s.link.tx = .waitGap ∨ s.link.tx = .yielded) :
    s.attempt gap = some ⟨k, r, s.attemptChars k v, false⟩ := by
  have sends := (sendRate_iff _ _).2 rate
  have measured : s.lineRate.reached gap 30 = true := by
    rw [lineRate_eq (rate.imp_right .inl)]
    exact decide_eq_true quiet
  simp [State.attempt, sends, measured, free, (waits_iff _).2 waits, lowest]

/-- R117: an attempt begins with the header of this moment; without one the gap is only measured. -/
theorem sendAttempt_eq (s : State) (gap : Nat) :
    (∀ a, s.attempt gap = some a → exec (.sendAttempt gap) s =
      .next { s with link := { s.link.letGo with tx := .sending a } }) ∧
    (s.attempt gap = none → exec (.sendAttempt gap) s =
      .next { s with link := { s.link.letGo with gapNs := gap } }) := by
  refine ⟨fun a begins => ?_, fun none => ?_⟩
  · simp only [exec, execSendAttempt, begins]
  · simp only [exec, execSendAttempt, none]

/-- R129: the lowest kind code in the pending set. -/
theorem lowest_kind {p : Slots} {k : TKind} {v : Nat} (lowest : p.lowest = some (k, v)) :
    (∀ c, p.command = some c → k = .command ∧ v = c.toNat) ∧
    (∀ c, p.command = none → p.learn = some c → k = .learn ∧ v = c.toNat) ∧
    (∀ c, p.command = none → p.learn = none → p.query = some c → k = .query ∧ v = c.toNat) ∧
    (∀ c, p.command = none → p.learn = none → p.query = none → p.reading = some c → k = .reading ∧ v = c.toNat) ∧
    (∀ c, p.command = none → p.learn = none → p.query = none → p.reading = none → p.status = some c →
      k = .status ∧ v = c.toNat) := by
  have named {j : TKind} {w : Nat} (e : some (j, w) = some (k, v)) : k = j ∧ v = w :=
    Prod.mk.inj (Option.some.inj e.symm)
  obtain ⟨command, learn, query, reading, status⟩ := p
  dsimp only
  refine ⟨?_, ?_, ?_, ?_, ?_⟩
  · rintro c rfl; exact named lowest
  · rintro c rfl rfl; exact named lowest
  · rintro c rfl rfl rfl; exact named lowest
  · rintro c rfl rfl rfl rfl; exact named lowest
  · rintro c rfl rfl rfl rfl rfl; exact named lowest

/-! ## COMPLETION -/

/-- R132: the station after an attempt that leaves this pending set. -/
def State.sent (s : State) (p : Slots) : State := { s with link := { s.link.letGo with slots := p, tx := p.rest } }

theorem sent_eq (s : State) (p : Slots) :
    s.sent p = { s with link := { s.link with
      gapNs := 0, driverNs := 0, lineNs := 0, slots := p
      tx := if p = ⟨none, none, none, none, none⟩ then .idle else .waitGap } } := by
  rw [← rest_eq]
  rfl

/-- R128: a slot whose content was replaced during the attempt stays pending. -/
theorem complete_replaced {s : State} {a : Attempt} (replaced : a.replaced = true) :
    s.complete a = s.sent s.link.slots := by
  simp only [State.complete, replaced, if_true]
  rfl

/-- R128, R132: the slot that was sent is emptied and its engine told. -/
theorem complete_sent {s : State} {a : Attempt} (sent : a.replaced = false) :
    s.complete a = (s.sent (s.link.slots.empty a.kind)).tellFree a.kind := by
  simp only [State.complete, sent, Bool.false_eq_true, if_false]
  rfl

/-- R132: the row of a completion during an attempt. -/
theorem completion_eq {s : State} {a : Attempt} (sending : s.link.tx = .sending a) :
    exec .completion s = .next (s.complete a) := by
  simp only [exec, execCompletion, sending]

/-- R128, R129: a telegram queued while none is sent lets the transmitter wait for a gap. -/
theorem queued_rest (p : Slots) (k : TKind) : p.rest.queued k = .waitGap := by
  unfold Slots.rest
  split <;> rfl

/-- R6, R134: with a valid serial only a latched driver is silent. -/
theorem sent_speaks {s : State} (valid : validSerial s.cfg.serial = true) (p : Slots) :
    (s.sent p).isSilent = false := by
  rw [← Bool.not_eq_true, isSilent_iff]
  exact fun silent => silent.elim (fun invalid => absurd (valid.symm.trans invalid) (by decide)) (rest_ne_latchedOff p)

/-- R209, R211: an engine without a telegram that waits has nothing to queue. -/
theorem offerQuery_idle {s : State} (idle : s.query.waiting = none) : s.offerQuery = s := by
  simp only [State.offerQuery, idle]

theorem offerReading_idle {s : State} (idle : s.spot.waiting = none) : s.offerReading = s := by
  simp only [State.offerReading, idle]

/-- R209: a QUERY that waits takes the slot that is free. -/
theorem offerQuery_waiting {s : State} {q : BitVec 24} (waiting : s.query.waiting = some q)
    (speaks : s.isSilent = false) : s.offerQuery = { s with
      query := { s.query with waiting := none }
      link := { s.link with slots := { s.link.slots with query := some q }, tx := s.link.tx.queued .query } } := by
  unfold State.offerQuery
  rw [waiting]
  exact putSlot_speaks (s := { s with query := { s.query with waiting := none } }) speaks _ _

/-- R211: a READING that waits takes the slot that is free. -/
theorem offerReading_waiting {s : State} {q : BitVec 104} (waiting : s.spot.waiting = some q)
    (speaks : s.isSilent = false) : s.offerReading = { s with
      spot := { s.spot with waiting := none }
      link := { s.link with slots := { s.link.slots with reading := some q }, tx := s.link.tx.queued .reading } } := by
  unfold State.offerReading
  rw [waiting]
  exact putSlot_speaks (s := { s with spot := { s.spot with waiting := none } }) speaks _ _

/-! ## What is queued or heard during an attempt -/

/-- R128: a telegram of the kind that is being sent marks its slot as replaced. -/
theorem queued_sending (a : Attempt) (k : TKind) :
    (TxState.sending a).queued k = .sending (if a.kind = k then { a with replaced := true } else a) := by
  unfold TxState.queued
  dsimp only
  split <;> rfl

/-- R136: a STATUS queued tells the transmitter. -/
theorem queueStatus_tx {s : State} (speaks : s.isSilent = false) :
    s.queueStatus.link.tx = s.link.tx.queued .status := by
  rcases queueStatus_cases s with ⟨silent, _⟩ | ⟨_, e⟩
  · exact absurd (speaks.symm.trans silent) (by decide)
  · rw [e]

/-- R124: a QUERY leaves of the link what its arrival makes of it, and counts an error where it is out of range. -/
theorem queryTelegram_link (h : RxHeader) (p : BitVec 24) (s : State) :
    ∃ t, exec (.queryTelegram h p) s = .next t ∧
      (t.link = s.heard.link ∨ t.link = s.heard.link.countError (some .query)) := by
  refine ⟨_, rfl, ?_⟩
  rcases arrive_cases s .query (queryDecode p)
    (fun s q => if s.answersQuery h q.2.1 then s.startReading q.1 q.2.2 else s) with
    ⟨_, e⟩ | ⟨_, _, e⟩ | ⟨_, _, _, e⟩ <;> rw [e]
  · exact .inl rfl
  · exact .inr rfl
  · left
    split
    · exact startReading_link _ _ _
    · rfl

/-- R120, R125: the second good telegram in VERIFY gives a JOINED station the lower rate. -/
theorem heard_slower {s : State} {r x : Rate} (verified : s.link.receiver = .verify r true)
    (joined : s.link.presence = .joined x) (slower : r.bps < x.bps) : s.heard.link.presence = .joined r := by
  simp [State.heard, Link.recount, Link.good, verified, joined, Presence.sync, slower]

/-- R120: an arrival leaves the transmitter. -/
theorem heard_tx (s : State) : s.heard.link.tx = s.link.tx := by
  show (s.link.good s.now).recount.tx = _
  rw [recount_tx, good_frame]

/-- Settles O47: an attempt by its conditions (`attempt_begins`, `attempt_some`), a completion by its kind
(`complete_replaced`, `complete_sent`), and what happens during one by `queued_sending` and `queryTelegram_link`. -/
theorem attemptAndCompletion : Obligations.AttemptAndCompletion := by
  intro gap k v s lowest ready chars counted slots
  have attempts (r : Rate) (ok : ready r) : s.attempt gap = some ⟨k, r, chars, false⟩ :=
    have ⟨rate, quiet, free, waits⟩ := ok
    attempt_begins lowest rate quiet free waits
  have attemptsOnly (no : ∀ r, ¬ ready r) : s.attempt gap = none := by
    rw [Option.eq_none_iff_forall_ne_some]
    intro a attempt
    obtain ⟨rate, quiet, free, waits, _⟩ := attempt_some attempt
    exact no a.rate ⟨(sendRate_iff _ _).1 rate, quiet, free, (waits_iff _).1 waits⟩
  obtain ⟨begins, measures⟩ := sendAttempt_eq s gap
  obtain ⟨command, learn, query, reading, status⟩ := lowest_kind lowest
  refine ⟨fun r ok => begins _ (attempts r ok), fun no => measures (attemptsOnly no), command, learn, query, reading,
    status, fun a sending => ⟨fun replaced => ?_, fun sent => ?_, fun speaks past => ?_, fun speaks head past => ?_,
      fun h p r x verified joined slower => ?_⟩⟩
  · have pending : slots ≠ ⟨none, none, none, none, none⟩ := fun e =>
      Option.some_ne_none _ (lowest.symm.trans (congrArg Slots.lowest e))
    rw [completion_eq sending, complete_replaced replaced, sent_eq, if_neg pending]
  · have ends {j : TKind} (kind : a.kind = j) :
        exec .completion s = .next ((s.sent (slots.empty j)).tellFree j) := by
      rw [completion_eq sending, complete_sent sent, kind]
    refine ⟨fun kind => ?_, fun kind => ?_, fun kind idle => ?_, fun kind idle => ?_, fun kind => ?_,
      fun q kind waits valid => ?_, fun q kind waits valid => ?_⟩
    · exact (ends kind).trans (congrArg _ (sent_eq s _))
    · exact (ends kind).trans (congrArg _ (sent_eq s _))
    · exact (ends kind).trans (congrArg _ ((offerQuery_idle (s := s.sent _) idle).trans (sent_eq s _)))
    · exact (ends kind).trans (congrArg _ ((offerReading_idle (s := s.sent _) idle).trans (sent_eq s _)))
    · exact (ends kind).trans (congrArg _ (sent_eq s _))
    · rw [ends kind, State.tellFree, offerQuery_waiting (s := s.sent _) waits (sent_speaks valid _), State.sent,
        queued_rest]
      rfl
    · rw [ends kind, State.tellFree, offerReading_waiting (s := s.sent _) waits (sent_speaks valid _), State.sent,
        queued_rest]
      rfl
  · obtain ⟨_, _, slot, _⟩ := queueStatus_spec { s with tell := { s.tell with expiredAt := some s.now } }
    refine ⟨_, statusTimer_eq past, congrArg Slots.status (slot speaks), ?_⟩
    rw [queueStatus_tx (s := { s with tell := { s.tell with expiredAt := some s.now } }) speaks,
      ← queued_sending, ← sending]
  · refine ⟨_, reSendTimer_eq head speaks past, rfl, ?_⟩
    rw [← queued_sending, ← sending]
  · obtain ⟨t, row, link⟩ := queryTelegram_link h p s
    have stays : t.link.presence = s.heard.link.presence ∧ t.link.tx = s.heard.link.tx := by
      rcases link with link | link <;> rw [link] <;> exact ⟨rfl, rfl⟩
    exact ⟨t, row, stays.1.trans (heard_slower verified joined slower), stays.2.trans ((heard_tx s).trans sending)⟩

end Sys2Proof.Machine
end

section
/-! SUPPORT. QUERY and READING at their arrival (R124, R210, R211). -/

namespace Sys2Proof.Machine

/-- R124: the conditions under which a QUERY starts a spot reading. -/
theorem answersQuery_iff (s : State) (h : RxHeader) (target : Byte) :
    s.answersQuery h target = true ↔
      s.isHead = false ∧ h.head = true ∧ (∀ x, s.roster.slots[(0 : Rank)] = some x → x.serial = h.serial) ∧
        ∃ r, s.rank.state = .ranked r ∧ target = BitVec.ofNat 8 r.val := by
  unfold State.answersQuery
  cases s.rank.state with
  | ranked r => simp [RankState.rank?, eligible_iff, and_assoc]
  | acquiring | unranked _ => simp [RankState.rank?]

/-- R124: a delivered QUERY starts a spot reading or is discarded. -/
theorem queryTelegram_eq {s : State} (delivers : s.link.receiver.delivers = true) {p : BitVec 24} {tag : BitVec 4}
    {target : Byte} {c : Circ} (decoded : queryDecode p = some (tag, target, c)) (h : RxHeader) :
    exec (.queryTelegram h p) s =
      .next (if s.heard.answersQuery h target = true then s.heard.startReading tag c else s.heard) := by
  simp only [exec, execQueryTelegram, decoded]
  rw [arrive_delivered delivers]

/-- R210: a delivered READING is taken by a head, and discarded by a unit. -/
theorem readingTelegram_eq {s : State} (delivers : s.link.receiver.delivers = true) {p : BitVec 104} {tag : BitVec 4}
    {c : Circ} {d : ReadingData} (decoded : readingDecode p = some (tag, c, d)) (h : RxHeader) :
    exec (.readingTelegram h p) s =
      .next (if s.isHead = true then s.heard.takeReading h.serial tag c d else s.heard) := by
  simp only [exec, execReadingTelegram, decoded]
  rw [arrive_delivered delivers]
  rfl

/-- R210: a reading matches the query of its tag, sender and circuit. -/
theorem matches_iff (q : Query) (tag : BitVec 4) (n : Serial) (c : Circ) :
    q.matches tag n c = true ↔ q.tag = tag ∧ q.serial = n ∧ q.circuit = c := by
  simp [Query.matches, and_assoc]

/-- R210: a READING that matches the outstanding query completes it. -/
theorem takeReading_completes {s : State} {q : Query} {tag : BitVec 4} {n : Serial} {c : Circ}
    (outstanding : s.query.outstanding = some q) (matched : q.tag = tag ∧ q.serial = n ∧ q.circuit = c)
    (d : ReadingData) : s.takeReading n tag c d = s.completeQuery q d := by
  unfold State.takeReading
  rw [outstanding]
  exact if_pos ((matches_iff q tag n c).2 matched)

/-- R210: any other READING is late. -/
theorem takeReading_late {s : State} {tag : BitVec 4} {n : Serial} {c : Circ}
    (other : ∀ q, s.query.outstanding = some q → ¬ (q.tag = tag ∧ q.serial = n ∧ q.circuit = c)) (d : ReadingData) :
    s.takeReading n tag c d = { s with query := { s.query with late := min 65535 (s.query.late + 1) } } := by
  rcases takeReading_cases s n tag c d with ⟨q, outstanding, matched, _⟩ | late
  · exact absurd ((matches_iff q tag n c).1 matched) (other q outstanding)
  · exact late

/-- R210: a completed query reaches the query engine and the event queue, which has room or notes its overflow. -/
theorem completeQuery_frame (s : State) (q : Query) (d : ReadingData) :
    s.completeQuery q d = { s with
      query := { s.query with outstanding := none, result := .done q d }
      events := (s.completeQuery q d).events, flags := (s.completeQuery q d).flags } := by
  unfold State.completeQuery
  rcases raise_cases { s with query := { s.query with outstanding := none, result := .done q d } }
    (.spotDone q.serial q.tag false) with ⟨_, e⟩ | ⟨_, _, e⟩ | ⟨_, _, e⟩ <;> rw [e]

theorem takeReading_frame (s : State) (n : Serial) (tag : BitVec 4) (c : Circ) (d : ReadingData) :
    let t := s.takeReading n tag c d
    t = { s with query := t.query, events := t.events, flags := t.flags } := by
  dsimp only
  rcases takeReading_cases s n tag c d with ⟨q, _, _, e⟩ | e <;> rw [e]
  rw [completeQuery_frame]

/-- Settles O42: a QUERY by R124's test (`answersQuery_iff`), a READING by the outstanding query
(`takeReading_completes`, `takeReading_late`). -/
theorem queryAndReadingTelegrams : Obligations.QueryAndReadingTelegrams := by
  refine fun h p q s delivers => ⟨fun tag target c decoded => ?_, fun tag c d decoded => ?_⟩
  · refine ⟨_, queryTelegram_eq delivers decoded h, ?_, ?_, ?_⟩
    · rw [startReading_frame]
      split <;> rfl
    · rw [startReading_frame]
      split <;> rfl
    · intro takes
      have test : s.heard.answersQuery h target = true ↔ takes := answersQuery_iff s.heard h target
      refine ⟨fun taken => ?_, fun other => ?_⟩
      · rw [if_pos (test.2 taken), startReading_frame]
      · rw [if_neg (mt test.1 other)]
        exact ⟨rfl, rfl⟩
  · refine ⟨_, readingTelegram_eq delivers decoded h, ?_, fun unit => ?_,
      fun o head outstanding tagged sender circuit => ?_, fun head other => ?_⟩
    · rw [takeReading_frame]
      split <;> rfl
    · rw [if_neg (by rw [unit]; exact Bool.false_ne_true)]
      exact ⟨rfl, rfl⟩
    · rw [if_pos head, takeReading_completes (s := s.heard) outstanding ⟨tagged, sender, circuit⟩]
      refine ⟨by rw [completeQuery_frame]; rfl, fun room => ?_⟩
      exact congrArg State.events (raise_room
        (s := { s.heard with query := { s.query with outstanding := none, result := .done o d } }) head room _)
    · rw [if_pos head, takeReading_late (s := s.heard) other]
      exact ⟨rfl, rfl⟩

end Sys2Proof.Machine
end

section
/-! SUPPORT. The requests LEARN and SPOT on the head (R127, R207, R209). -/

namespace Sys2Proof.Machine

/-- R199: a head acts on the request. -/
theorem headOnly_head {s : State} (head : s.isHead = true) (act : State → State) :
    State.headOnly act s = act s := if_pos head

/-! ## LEARN -/

/-- R207: the stations that the mask of a LEARN finds. -/
theorem mem_learnTargets (s : State) (stations : Byte) (r : Rank) :
    r ∈ s.learnTargets stations ↔ r ≠ 0 ∧ stations.getLsbD r.val = true ∧ s.roster.slots[r] ≠ none := by
  simp [State.learnTargets, mem_allCirc, and_assoc, Option.isSome_iff_ne_none]

/-- R207: the tracked mask has exactly the bits of its ranks. -/
theorem maskOf_getLsbD (rs : List Rank) (r : Rank) : (maskOf rs).getLsbD r.val = true ↔ r ∈ rs := by
  have one (q : Rank) : (circBit q).getLsbD r.val = true ↔ q = r := by revert q r; decide
  have fold (m : Byte) : (rs.foldl (fun m q => m ||| circBit q) m).getLsbD r.val = true ↔
      m.getLsbD r.val = true ∨ r ∈ rs := by
    induction rs generalizing m with
    | nil => simp
    | cons q rs ih =>
      rw [List.foldl_cons, ih, BitVec.getLsbD_or, Bool.or_eq_true, one, List.mem_cons, or_assoc, eq_comm (a := q)]
  rw [maskOf, fold]
  simp

/-- R207: the row of a LEARN at the release of its frame. -/
theorem learn_eq {s : State} (framed : s.port.frame = some .reply ∨ s.port.frame = some .noRequest)
    (head : s.isHead = true) (stations circuits : Byte) :
    ∃ slot, exec (.learn stations circuits) s = .next ((s.released slot).requestLearn stations circuits) := by
  obtain ⟨slot, release⟩ := atRelease_acts framed (State.headOnly (State.requestLearn stations circuits))
  exact ⟨slot, congrArg Host.Outcome.next (release.trans (headOnly_head (s := s.released slot) head _))⟩

/-- R207: a LEARN while one is in progress or waits to be sent is BUSY. -/
theorem requestLearn_busy {s : State} (busy : s.learner.tracked ≠ [] ∨ s.link.slots.learn ≠ none)
    (stations circuits : Byte) : s.requestLearn stations circuits = s.reply codeBusy [] := by
  refine if_pos ?_
  rw [Bool.or_eq_true, State.learnInProgress, Bool.not_eq_true', List.isEmpty_eq_false_iff, Option.isSome_iff_ne_none]
  exact busy

/-- R207: a free head finds NO STATION, or starts the LEARN. -/
theorem requestLearn_free {s : State} (idle : s.learner.tracked = []) (free : s.link.slots.learn = none)
    (stations circuits : Byte) : s.requestLearn stations circuits =
      if s.learnTargets stations = [] then s.reply codeNoStation [] else s.startLearn stations circuits := by
  simp [State.requestLearn, State.learnInProgress, idle, free]

/-- R207: the stations that an accepted LEARN tracks. -/
def State.learnTracked (s : State) (stations : Byte) : List Tracked :=
  (s.learnTargets stations).filterMap fun r => s.roster.slots[r].map fun e => ⟨e.serial, false, s.now + 2000⟩

theorem mem_learnTracked (s : State) (stations : Byte) (u : Tracked) :
    u ∈ s.learnTracked stations ↔ ∃ r ∈ s.learnTargets stations, ∃ e, s.roster.slots[r] = some e ∧
      ⟨e.serial, false, s.now + 2000⟩ = u := by
  simp only [State.learnTracked, List.mem_filterMap, Option.map_eq_some_iff]

/-- R127, R207: what an accepted LEARN of a station that may send leaves. -/
theorem startLearn_speaks {s : State} (speaks : s.isSilent = false) (stations circuits : Byte) :
    s.startLearn stations circuits = { s with
      learner := ⟨s.learner.epoch + 1, circuits, s.learnTracked stations⟩
      link := { s.link with
        slots := { s.link.slots with learn := some (learnPayload (s.learner.epoch + 1) stations circuits) }
        tx := s.link.tx.queued .learn }
      port := { s.port with
        slot := .finished [0x02#8, 0x02#8, s.learner.epoch + 1, maskOf (s.learnTargets stations)] } } := by
  unfold State.startLearn
  dsimp only
  rw [putSlot_speaks (by exact speaks)]
  rfl

/-! ## SPOT -/

/-- R209: the row of a SPOT with a rank and a circuit in range, at the release of its frame. -/
theorem spot_eq {s : State} (framed : s.port.frame = some .reply ∨ s.port.frame = some .noRequest)
    (head : s.isHead = true) (rank : Rank) (c : Circ) :
    ∃ slot, exec (.spot (BitVec.ofNat 8 rank.val) (BitVec.ofNat 8 c.val)) s =
      .next ((s.released slot).requestSpot rank c) := by
  have byte (i : Fin 8) : (BitVec.ofNat 8 i.val).toNat = i.val := by simp; omega
  obtain ⟨slot, release⟩ := atRelease_acts framed (State.headOnly fun s =>
    if hr : (BitVec.ofNat 8 rank.val).toNat < 8 then
      if hc : (BitVec.ofNat 8 c.val).toNat < 8 then
        s.requestSpot ⟨(BitVec.ofNat 8 rank.val).toNat, hr⟩ ⟨(BitVec.ofNat 8 c.val).toNat, hc⟩
      else s.reply codeBadRequest []
    else s.reply codeBadRequest [])
  refine ⟨slot, congrArg Host.Outcome.next (release.trans ?_)⟩
  rw [headOnly_head (s := s.released slot) head]
  simp only [byte, rank.isLt, c.isLt, dite_true]

/-- R209: a QUERY waits in its engine, or goes to its slot where the station may send. -/
theorem queueQuery_occupied {s : State} (occupied : s.link.slots.query ≠ none) (p : BitVec 24) :
    s.queueQuery p = { s with query := { s.query with waiting := some p } } :=
  if_pos (Option.isSome_iff_ne_none.2 occupied)

theorem queueQuery_free {s : State} (free : s.link.slots.query = none) (speaks : s.isSilent = false) (p : BitVec 24) :
    s.queueQuery p = { s with link := { s.link with
      slots := { s.link.slots with query := some p }, tx := s.link.tx.queued .query } } := by
  unfold State.queueQuery
  rw [free]
  exact (if_neg nofun).trans (putSlot_speaks speaks _ _)

/-- R209: the answers of SPOT, by the outstanding query, the rank and its roster slot. -/
theorem requestSpot_busy {s : State} (busy : s.query.outstanding ≠ none) (rank : Rank) (c : Circ) :
    s.requestSpot rank c = s.reply codeBusy [] := if_pos (Option.isSome_iff_ne_none.2 busy)

theorem requestSpot_noStation {s : State} {rank : Rank} (idle : s.query.outstanding = none) (other : rank ≠ 0)
    (empty : s.roster.slots[rank] = none) (c : Circ) : s.requestSpot rank c = s.reply codeNoStation [] := by
  unfold State.requestSpot
  rw [idle, empty]
  exact if_neg other

theorem requestSpot_station {s : State} {rank : Rank} {e : RosterEntry} (idle : s.query.outstanding = none)
    (other : rank ≠ 0) (station : s.roster.slots[rank] = some e) (c : Circ) : s.requestSpot rank c =
      ((s.openQuery rank e.serial c).queueQuery (queryPayload s.query.nextTag rank c)).reply codeAccepted
        (byte1 s.query.nextTag.toNat) := by
  unfold State.requestSpot
  rw [idle, station]
  exact if_neg other

theorem requestSpot_own {s : State} (idle : s.query.outstanding = none) (c : Circ) : s.requestSpot 0 c =
    ((s.openQuery 0 s.cfg.serial c).startReading s.query.nextTag c).reply codeAccepted
      (byte1 s.query.nextTag.toNat) := by
  unfold State.requestSpot
  rw [idle]
  rfl

/-- Settles O57: LEARN and SPOT at the release of the frame, each by what keeps it from being accepted, and the accepted
ones by `startLearn_speaks`, `queueQuery_free`, `queueQuery_occupied` and `startReading_frame`. -/
theorem learnAndSpotStart : Obligations.LearnAndSpotStart := by
  intro stations circuits rank c s framed head speaks found spot tag query
  obtain ⟨learnSlot, learnRow⟩ := learn_eq framed head stations circuits
  obtain ⟨slot, spotRow⟩ := spot_eq framed head rank c
  have targets (r : Rank) : r ∈ (s.released learnSlot).learnTargets stations ↔ found r := mem_learnTargets _ stations r
  refine ⟨⟨_, learnRow, ?_, fun busy => ?_, fun idle free nowhere => ?_, fun idle free somewhere => ?_⟩, fun busy => ?_,
    fun idle other empty => ?_, fun e idle other station => ?_, fun idle own => ?_⟩
  · rcases requestLearn_cases (s.released learnSlot) stations circuits with
      ⟨_, e⟩ | ⟨_, _, _, e⟩ | ⟨_, _, _, e⟩ <;> rw [e]
    · rfl
    · rfl
    · rw [startLearn_speaks (s := s.released learnSlot) speaks]
      rfl
  · rw [requestLearn_busy (s := s.released learnSlot) busy]
    exact ⟨rfl, rfl, rfl⟩
  · have noTarget : (s.released learnSlot).learnTargets stations = [] :=
      List.eq_nil_iff_forall_not_mem.2 fun r => mt (targets r).1 (nowhere r)
    rw [requestLearn_free (s := s.released learnSlot) idle free, if_pos noTarget]
    exact ⟨rfl, rfl, rfl⟩
  · obtain ⟨r, there⟩ := somewhere
    rw [requestLearn_free (s := s.released learnSlot) idle free, if_neg (List.ne_nil_of_mem ((targets r).2 there)),
      startLearn_speaks (s := s.released learnSlot) speaks]
    refine ⟨rfl, rfl, ⟨_, rfl, fun r => (maskOf_getLsbD _ r).trans (targets r)⟩, rfl, fun r e entry there => ?_,
      fun u tracked => ?_⟩
    · exact (mem_learnTracked _ _ _).2 ⟨r, (targets r).2 there, e, entry, rfl⟩
    · obtain ⟨r, target, e, entry, rfl⟩ := (mem_learnTracked _ _ _).1 tracked
      exact ⟨r, e, (targets r).1 target, entry, rfl⟩
  · rw [spotRow, requestSpot_busy (s := s.released slot) busy]
    rfl
  · rw [spotRow, requestSpot_noStation (s := s.released slot) idle other empty]
    rfl
  · refine ⟨_, spotRow, ?_⟩
    rw [requestSpot_station (s := s.released slot) idle other station]
    by_cases free : s.link.slots.query = none
    · rw [queueQuery_free (s := (s.released slot).openQuery rank e.serial c) free speaks]
      exact ⟨rfl, rfl, rfl, rfl, fun _ => ⟨rfl, rfl⟩, fun occupied => absurd free occupied, rfl⟩
    · rw [queueQuery_occupied (s := (s.released slot).openQuery rank e.serial c) free]
      exact ⟨rfl, rfl, rfl, rfl, fun none => absurd none free, fun _ => ⟨rfl, rfl⟩, rfl⟩
  · subst own
    refine ⟨_, spotRow, ?_⟩
    rw [requestSpot_own (s := s.released slot) idle, startReading_frame]
    exact ⟨rfl, rfl, rfl, rfl, rfl, rfl⟩

end Sys2Proof.Machine
end

section
/-! SUPPORT. The receiver (R116, R119, R120, R122, R125, R217): candidate starts, bad telegrams, and what the arrival of
a good telegram of any kind leaves of the link. -/

namespace Sys2Proof.Machine

/-! ## CANDIDATE_START -/

/-- R119: the gap is 30 bit times of the fastest rate. -/
theorem quietEnough_iff (quietNs : Nat) : quietEnough quietNs = true ↔ 30 * 1000000000 ≤ quietNs * 115200 :=
  decide_eq_true_iff

/-- R119: a width qualifies for a rate exactly within 12% of its bit time. -/
theorem ofWidth_iff (widthNs : Nat) (r : Rate) :
    Rate.ofWidth widthNs = some r ↔
      88 * 1000000000 ≤ 100 * widthNs * r.bps ∧ 100 * widthNs * r.bps ≤ 112 * 1000000000 :=
  ⟨ofWidth_matches, fun ⟨lo, hi⟩ => ofWidth_unique lo hi⟩

/-- R119: a candidate start gives a rate after a quiet gap, from another station, by its width and a rate mark. -/
theorem candidateRate_iff (quietNs widthNs : Nat) (driving : Bool) (c : RxChar) (r : Rate) :
    candidateRate quietNs widthNs driving c = some r ↔
      (30 * 1000000000 ≤ quietNs * 115200 ∧ driving = false ∧ c = ⟨0x55#8, true⟩) ∧
        88 * 1000000000 ≤ 100 * widthNs * r.bps ∧ 100 * widthNs * r.bps ≤ 112 * 1000000000 := by
  have mark : c.data = 0x55#8 ∧ c.stop = true ↔ c = ⟨0x55#8, true⟩ := by
    obtain ⟨data, stop⟩ := c
    rw [RxChar.mk.injEq]
  rw [← ofWidth_iff, ← quietEnough_iff, ← mark]
  simp only [candidateRate, Option.ite_none_right_eq_some, Bool.and_eq_true, Bool.not_eq_true', beq_iff_eq]
  tauto

/-- R119: without a rate the receiver stays as it was. -/
theorem hear_none (x : Receiver) : x.hear none = x := by cases x <;> rfl

/-- R119: outside HUNT no candidate start is heard. -/
theorem hear_engaged {x : Receiver} (engaged : x ≠ .hunt) (r : Option Rate) : x.hear r = x := by
  cases x with
  | hunt => exact absurd rfl engaged
  | verify | synced => rfl

/-- R116: a candidate start that moves no receiver leaves the counts of the line at 0. -/
theorem candidateStart_stays {s : State} {quietNs widthNs : Nat} {driving : Bool} {c : RxChar}
    (stays : s.link.receiver.hear (candidateRate quietNs widthNs driving c) = s.link.receiver) :
    exec (.candidateStart quietNs widthNs driving c) s = .next { s with link := s.link.recount } := by
  simp only [exec, execCandidateStart, stays]
  rfl

/-- R119: a candidate start that gives no rate moves no receiver. -/
theorem candidateStart_noRate {quietNs widthNs : Nat} {driving : Bool} {c : RxChar}
    (no : ∀ r, candidateRate quietNs widthNs driving c ≠ some r) (s : State) :
    exec (.candidateStart quietNs widthNs driving c) s = .next { s with link := s.link.recount } :=
  candidateStart_stays (by rw [Option.eq_none_iff_forall_ne_some.2 no, hear_none])

/-! ## BAD_TELEGRAM -/

/-- R122: the row of a telegram that fails a test. -/
theorem badTelegram_eq {cs : List RxChar} {why : RxFailure} {k : Option TKind} (bad : rxTest cs = .bad why k)
    (s : State) : exec (.badTelegram cs) s = .next { s with link := (s.link.bad k).recount } := by
  simp only [exec, execBadTelegram, bad]

/-- R120, R122: in SYNCED a bad telegram is counted, and the eighth in a row ends in HUNT. -/
theorem bad_synced {l : Link} {r : Rate} (synced : l.receiver = .synced r) (k : Option TKind) :
    l.bad k = { l with
      errors := l.errors.raise k, receiver := if 7 ≤ l.badRun then .hunt else .synced r
      badRun := if 7 ≤ l.badRun then 0 else l.badRun + 1 } := by
  rcases bad_cases l k with ⟨other, _⟩ | ⟨_, _, other, _⟩ | ⟨_, _, last, e⟩ | ⟨_, _, more, e⟩
  · cases synced.symm.trans other
  · cases synced.symm.trans other
  · rw [e, if_pos last, if_pos last]
  · rw [e, if_neg (Nat.not_le_of_lt more), if_neg (Nat.not_le_of_lt more), ← synced]

/-! ## The arrival of a good telegram -/

/-- R119: what is delivered is all but in HUNT. -/
theorem delivers_iff (x : Receiver) : x.delivers = true ↔ x ≠ .hunt := by cases x <;> simp [Receiver.delivers]

/-- R116, R120, R125: what an arrival decides of the link. -/
def Link.reception (l : Link) : Receiver × Nat × Presence × Option Ms × Nat × Nat :=
  (l.receiver, l.badRun, l.presence, l.aloneAt, l.gapNs, l.lineNs)

/-- What the row of a good telegram has done before a change is noted: the reception is that of the arrival, and in HUNT
there is nothing else. -/
structure Arrived (s u : State) : Prop where
  reception : u.link.reception = s.heard.link.reception
  hunt : s.link.receiver = .hunt → u = s.heard

theorem arrive_arrived {α : Type} {consume : State → α → State} (h : ∀ s a, (consume s a).link = s.link) (s : State)
    (k : TKind) (content : Option α) : Arrived s (s.arrive k content consume) := by
  have undelivered (hunt : s.link.receiver = .hunt) : s.link.receiver.delivers ≠ true :=
    fun delivers => (delivers_iff _).1 delivers hunt
  rcases arrive_cases s k content consume with ⟨_, e⟩ | ⟨delivers, _, e⟩ | ⟨c, delivers, _, e⟩ <;> rw [e]
  · exact ⟨rfl, fun _ => rfl⟩
  · exact ⟨rfl, fun hunt => absurd delivers (undelivered hunt)⟩
  · exact ⟨congrArg Link.reception (h s.heard c), fun hunt => absurd delivers (undelivered hunt)⟩

/-- R136: a STATUS that a change queues leaves the reception. -/
theorem announce_reception (b s : State) : (announce b s).link.reception = s.link.reception := by
  rcases announce_cases b s with ⟨_, e⟩ | ⟨_, e⟩ <;> rw [e]
  rcases noteChange_cases s with ⟨_, e⟩ | ⟨_, _, e⟩ <;> rw [e]
  rcases queueStatus_cases s with ⟨_, e⟩ | ⟨_, e⟩ <;> exact congrArg (fun t => t.link.reception) e

/-! ## No consumer reaches the link -/

theorem ListOnly.link {s t : State} (h : ListOnly s t) : t.link = s.link := by
  unfold ListOnly at h
  rw [h]

theorem takeCommand_link (h : RxHeader) (s : State) (m : CommandContent) : (s.takeCommand h m).link = s.link := by
  unfold State.takeCommand
  dsimp only
  split
  · split
    · exact (headClashInput_listOnly _ _).link.trans (coastEdge_link _ _)
    · exact coastEdge_link _ _
  · split
    · split
      · rcases trackCommand_cases s h.serial m with e | e | e <;> rw [e] <;> rfl
      · rfl
    · rfl

theorem trackLearning_link (s : State) (n : Serial) (rep : Report) : (s.trackLearning n rep).link = s.link := by
  unfold State.trackLearning
  split
  · rfl
  · split
    · rfl
    · exact raise_link _ _
    · rfl
    · rfl

theorem learnStatus_link (s : State) (n : Serial) (rep : Report) (out : Placement) :
    (s.learnStatus n rep out).link = s.link := by
  cases out with
  | notTaken => rfl
  | new | refreshed | moved => exact trackLearning_link _ _ _

theorem listStatus_link (s : State) (before : Roster) (h : RxHeader) (prev : Option Report) (rep : Report)
    (out : Placement) : (s.listStatus before h prev rep out).link = s.link := by
  unfold State.listStatus
  split
  · exact (statusInput_listOnly _ _ _ _ _).link
  · dsimp only
    split
    · exact ((clashChange_listOnly _ _ _ _).trans (statusInput_listOnly _ _ _ _ _)).link
    · exact ((statusInput_listOnly _ _ _ _ _).trans (clashChange_listOnly _ _ _ _)).link

theorem takeStatus_link (s : State) (h : RxHeader) (rep : Report) : (s.takeStatus h rep).link = s.link := by
  have unlisted (t : State) (out : Placement) : (t.noteUnlisted out).link = t.link := by cases out <;> rfl
  unfold State.takeStatus
  dsimp only
  split
  · rw [learnStatus_link, (raiseRankChanged_listOnly _ _ _).link, unlisted, listStatus_link]
    rfl
  · rfl

/-! ## Every good telegram -/

/-- R120, R124, R136: a good telegram of any kind arrives, and after a COMMAND or a LEARN what changed is noted. -/
theorem goodTelegram_arrives (h : RxHeader) (pc : BitVec 64) (pl pq : BitVec 24) (pr : BitVec 104) (ps : BitVec 288)
    (s : State) (i : Instr) (good : i ∈ [Instr.commandTelegram h pc, .learnTelegram h pl, .queryTelegram h pq,
      .readingTelegram h pr, .statusTelegram h ps]) :
    ∃ u, Arrived s u ∧ (exec i s = .next u ∨ exec i s = .next (announce s u)) := by
  simp only [List.mem_cons, List.not_mem_nil, or_false] at good
  rcases good with rfl | rfl | rfl | rfl | rfl
  · exact ⟨_, arrive_arrived (takeCommand_link h) s .command _, .inr rfl⟩
  · exact ⟨_, arrive_arrived (fun s p => by split <;> rfl) s .learn _, .inr rfl⟩
  · exact ⟨_, arrive_arrived (fun s q => by split; exacts [startReading_link _ _ _, rfl]) s .query _, .inl rfl⟩
  · refine ⟨_, arrive_arrived (fun s r => ?_) s .reading _, .inl rfl⟩
    rw [takeReading_frame]
    split <;> rfl
  · exact ⟨_, arrive_arrived (fun s rep => takeStatus_link s h rep) s .status _, .inl rfl⟩

/-- R120, R136: the reception that a good telegram leaves is that of its arrival, noted change or not. -/
theorem goodTelegram_received {s u : State} {i : Instr} (arrived : Arrived s u)
    (row : exec i s = .next u ∨ exec i s = .next (announce s u)) :
    ∃ t, exec i s = .next t ∧ t.link.reception = s.heard.link.reception := by
  rcases row with row | row
  · exact ⟨u, row, arrived.reception⟩
  · exact ⟨_, row, (announce_reception s u).trans arrived.reception⟩

/-- R123: in HUNT a good telegram is not delivered. -/
theorem goodTelegram_hunt {s u : State} {i : Instr} (hunt : s.link.receiver = .hunt) (arrived : Arrived s u)
    (row : exec i s = .next u ∨ exec i s = .next (announce s u)) :
    exec i s = .next { s with link := s.link.recount } := by
  have undelivered : s.heard = { s with link := s.link.recount } := by simp only [State.heard, Link.good, hunt]
  have same : announce s { s with link := s.link.recount } = { s with link := s.link.recount } := announce_same rfl
  rcases row with row | row <;> rw [row, arrived.hunt hunt, undelivered]
  rw [same]

/-- R120, R125: outside HUNT a good telegram ends the bad run and restarts the ALONE timer where R125 says so. -/
theorem good_engaged {l : Link} (engaged : l.receiver ≠ .hunt) (now : Ms) :
    (l.good now).badRun = 0 ∧ (l.good now).aloneAt = l.restartAlone now := by
  unfold Link.good
  split
  next hunt => exact absurd hunt engaged
  all_goals exact ⟨rfl, rfl⟩

/-- R120, R125: the first good telegram in VERIFY passes it, the second enters SYNCED at the rate. -/
theorem good_first {l : Link} {r : Rate} (first : l.receiver = .verify r false) (now : Ms) :
    (l.good now).receiver = .verify r true ∧ (l.good now).presence = l.presence := by
  rw [Link.good, first]
  exact ⟨rfl, rfl⟩

theorem good_second {l : Link} {r : Rate} (second : l.receiver = .verify r true) (now : Ms) :
    (l.good now).receiver = .synced r ∧ (l.good now).presence = l.presence.sync r := by
  rw [Link.good, second]
  exact ⟨rfl, rfl⟩

theorem good_synced {l : Link} {r : Rate} (synced : l.receiver = .synced r) (now : Ms) :
    (l.good now).receiver = .synced r ∧ (l.good now).presence = l.presence := by
  rw [Link.good, synced]
  exact ⟨rfl, rfl⟩

/-- R125: the ALONE timer restarts for any station that is not ALONE. -/
theorem restartAlone_other {l : Link} (other : ∀ x, l.presence ≠ .alone x) (now : Ms) :
    l.restartAlone now = some (now + 2000) := by
  unfold Link.restartAlone
  split
  next x alone => exact absurd alone (other x)
  all_goals rfl

/-- R125: a JOINED station takes only a lower rate, any other the rate it has verified. -/
theorem sync_joined (x r : Rate) : (Presence.joined x).sync r = .joined (if r.bps < x.bps then r else x) := by
  unfold Presence.sync
  dsimp only
  split <;> rfl

theorem sync_other {p : Presence} (other : ∀ x, p ≠ .joined x) (r : Rate) : p.sync r = .joined r := by
  cases p with
  | joined x => exact absurd rfl (other x)
  | listening | alone => rfl

/-- R217: a delivered payload out of its range is counted, and reaches nothing else. -/
theorem arrive_outOfRange {α : Type} {s : State} (engaged : s.link.receiver ≠ .hunt) (k : TKind)
    (consume : State → α → State) :
    s.arrive k none consume = { s with link := s.heard.link.countError (some k) } :=
  if_pos ((delivers_iff _).2 engaged)

/-- R122: what a counted error changes of the link. -/
theorem countError_heard (s : State) (k : Option TKind) :
    (s.heard.link.countError k).errors = s.link.errors.raise k ∧ (s.heard.link.countError k).slots = s.link.slots ∧
      (s.heard.link.countError k).tx = s.link.tx := by
  have heard : s.heard.link = (s.link.good s.now).recount := rfl
  rw [heard, good_frame]
  exact ⟨rfl, rfl, rfl⟩

/-- Settles O39: a candidate start by `candidateRate_iff`, a bad telegram by the receiver's state, a good one by what
its arrival leaves (`goodTelegram_arrives`), a payload out of range by `arrive_outOfRange`. -/
theorem receiverFindsAndLosesRate : Obligations.ReceiverFindsAndLosesRate := by
  intro quietNs widthNs cs s heard hears
  refine ⟨fun r hunt quiet lo hi => ⟨?_, ?_, fun c noMark => ?_⟩, fun unfit driving c => ?_,
    fun why k bad => ⟨fun hunt => ?_, fun r passed verify => ?_, fun r synced => ?_⟩,
    fun h pc pl pq pr ps => ⟨fun i good => ?_, fun engaged => ?_⟩⟩
  · have rate := (candidateRate_iff quietNs widthNs false ⟨0x55#8, true⟩ r).2 ⟨⟨quiet, rfl, rfl⟩, lo, hi⟩
    simp only [exec, execCandidateStart, rate, hunt]
    rfl
  · refine candidateStart_noRate (fun x rate => ?_) s
    obtain ⟨⟨_, driven, _⟩, _⟩ := (candidateRate_iff _ _ _ _ x).1 rate
    cases driven
  · refine candidateStart_noRate (fun x rate => ?_) s
    obtain ⟨⟨_, _, mark⟩, _⟩ := (candidateRate_iff _ _ _ _ x).1 rate
    exact noMark mark
  · by_cases hunt : s.link.receiver = .hunt
    · refine candidateStart_noRate (fun x rate => ?_) s
      obtain ⟨⟨quiet, _, _⟩, lo, hi⟩ := (candidateRate_iff _ _ _ _ x).1 rate
      rcases unfit with band | short | engaged
      · exact (band x).elim (Nat.not_lt_of_le lo) (Nat.not_lt_of_le hi)
      · exact Nat.not_lt_of_le quiet short
      · exact engaged hunt
    · exact candidateStart_stays (hear_engaged hunt _)
  · refine (badTelegram_eq bad s).trans ?_
    rw [Link.bad, hunt]
    rfl
  · rw [badTelegram_eq bad, Link.bad, verify]
    rfl
  · rw [badTelegram_eq bad, bad_synced synced]
    rfl
  · obtain ⟨u, arrived, row⟩ := goodTelegram_arrives h pc pl pq pr ps s i good
    refine ⟨fun hunt => goodTelegram_hunt hunt arrived row, fun engaged => ?_⟩
    obtain ⟨t, row, received⟩ := goodTelegram_received arrived row
    simp only [Link.reception, Prod.mk.injEq] at received
    obtain ⟨receiver, badRun, presence, aloneAt, gap, line⟩ := received
    obtain ⟨noRun, timer⟩ := good_engaged engaged s.now
    replace aloneAt : t.link.aloneAt = s.link.restartAlone s.now := aloneAt.trans timer
    replace receiver : t.link.receiver = (s.link.good s.now).receiver := receiver
    replace presence : t.link.presence = (s.link.good s.now).presence := presence
    refine ⟨t, row, badRun.trans noRun, gap, line, fun x alone => ?_, fun other => ?_, fun r first => ?_,
      fun r second => ?_, fun r synced => ?_⟩
    · rw [aloneAt, Link.restartAlone, alone]
    · rw [aloneAt, restartAlone_other other]
    · rw [receiver, presence]
      exact good_first first s.now
    · obtain ⟨enters, sends⟩ := good_second second s.now
      rw [receiver, presence, enters, sends]
      refine ⟨rfl, fun x joined => ?_, fun other => sync_other other r⟩
      rw [joined, sync_joined]
    · rw [receiver, presence]
      exact good_synced synced s.now
  · intro counted n
    have errs (k : TKind) (i : Instr) (row : exec i s = .next { s with link := s.heard.link.countError (some k) }) :
        counted i (n.raise (some k)) := ⟨_, row, rfl, countError_heard s (some k)⟩
    refine ⟨fun out => errs .command _ ?_, fun out => errs .query _ ?_, fun out => errs .reading _ ?_,
      fun out => errs .status _ ?_⟩
    · have same : announce s { s with link := s.heard.link.countError (some .command) } = _ := announce_same rfl
      simp only [exec, execCommandTelegram, out, arrive_outOfRange engaged, same]
    · simp only [exec, execQueryTelegram, out, arrive_outOfRange engaged]
    · simp only [exec, execReadingTelegram, out, arrive_outOfRange engaged]
    · simp only [exec, execStatusTelegram, out, arrive_outOfRange engaged]

end Sys2Proof.Machine
end

section
/-! SUPPORT. The laws of rank, roster and age (R143, R147, R148) as propositions, and the changes of the roster that keep
them. -/

namespace Sys2Proof.Machine

/-! ## The laws -/

/-- R143: the head holds rank 0, and a unit holds another or none. -/
theorem rankLaw_iff (s : State) :
    s.rankLaw = true ↔
      (s.isHead = true → s.rank.state = .ranked 0) ∧ (s.isHead = false → s.rank.state ≠ .ranked 0) := by
  cases h : s.isHead <;> simp [State.rankLaw, h]

/-- R147, R148: no serial stands twice, the unplaced list holds at most four, and no ranked entry is marked CLASH. -/
structure Roster.Sound (x : Roster) : Prop where
  room : x.unplaced.length ≤ 4
  slots : ∀ (i j : Rank) (e f : RosterEntry), x.slots[i] = some e → x.slots[j] = some f → e.serial = f.serial → i = j
  listed : (x.unplaced.map RosterEntry.serial).Nodup
  apart : ∀ (i : Rank) (e : RosterEntry), x.slots[i] = some e → e.serial ∉ x.unplaced.map RosterEntry.serial
  calm : ∀ (i : Rank) (e : RosterEntry), x.slots[i] = some e → e.clash = false

theorem allCirc_nodup : allCirc.Nodup := by decide

/-- R147: the serials of the ranked slots, one by one. -/
theorem slotSerials_nodup (x : Roster) :
    (allCirc.filterMap fun i => x.slots[i].map RosterEntry.serial).Nodup ↔
      ∀ (i j : Rank) (e f : RosterEntry), x.slots[i] = some e → x.slots[j] = some f → e.serial = f.serial → i = j := by
  unfold List.Nodup
  rw [List.pairwise_filterMap]
  constructor
  · intro h i j e f hi hj same
    have symm : Std.Symm fun a b : Rank => ∀ m, x.slots[a].map RosterEntry.serial = some m →
        ∀ n, x.slots[b].map RosterEntry.serial = some n → m ≠ n := ⟨fun _ _ g m hm n hn => (g n hn m hm).symm⟩
    by_contra other
    exact h.forall (mem_allCirc i) (mem_allCirc j) other e.serial (by simp [hi]) f.serial (by simp [hj]) same
  · intro h
    refine allCirc_nodup.imp fun {i j} other a ha b hb => ?_
    obtain ⟨e, he, rfl⟩ := Option.map_eq_some_iff.1 ha
    obtain ⟨f, hf, rfl⟩ := Option.map_eq_some_iff.1 hb
    exact fun same => other (h i j e f he hf same)

theorem mem_slotSerials (x : Roster) (n : Serial) :
    n ∈ (allCirc.filterMap fun i => x.slots[i].map RosterEntry.serial) ↔
      ∃ (i : Rank) (e : RosterEntry), x.slots[i] = some e ∧ e.serial = n := by
  rw [List.mem_filterMap]
  constructor
  · rintro ⟨i, -, h⟩
    obtain ⟨e, he, rfl⟩ := Option.map_eq_some_iff.1 h
    exact ⟨i, e, he, rfl⟩
  · rintro ⟨i, e, he, rfl⟩
    exact ⟨i, mem_allCirc i, by simp [he]⟩

/-- R147, R153: the law of the roster is a sound roster whose closed slot is empty. -/
theorem rosterLaw_iff (s : State) :
    s.rosterLaw = true ↔ s.roster.Sound ∧ ∀ r, s.rank.state = .ranked r → s.roster.slots[r] = none := by
  have each (i : Rank) :
      ((!s.slotClosed i || s.roster.slots[i].isNone) && !(s.roster.slots[i].map RosterEntry.clash).getD false) = true ↔
        (s.rank.state = .ranked i → s.roster.slots[i] = none) ∧
          ∀ e, s.roster.slots[i] = some e → e.clash = false := by
    have closed : s.slotClosed i = true ↔ s.rank.state = .ranked i := by simp [State.slotClosed]
    rw [← closed]
    cases s.slotClosed i <;> cases s.roster.slots[i] <;> simp
  have serials : s.roster.serials.Nodup ↔ _ ∧ _ ∧ _ := List.nodup_append'
  unfold State.rosterLaw
  rw [Bool.and_eq_true, Bool.and_eq_true, decide_eq_true_eq, decide_eq_true_eq, all_allCirc, serials, slotSerials_nodup]
  constructor
  · rintro ⟨⟨room, slots, listed, disjoint⟩, all⟩
    refine ⟨⟨room, slots, listed, fun i e he inList => ?_, fun i => ((each i).1 (all i)).2⟩, fun r =>
      ((each r).1 (all r)).1⟩
    exact disjoint ((mem_slotSerials _ _).2 ⟨i, e, he, rfl⟩) inList
  · rintro ⟨⟨room, slots, listed, apart, calm⟩, closed⟩
    refine ⟨⟨room, slots, listed, fun n inSlots inList => ?_⟩, fun i => (each i).2 ⟨closed i, calm i⟩⟩
    obtain ⟨i, e, he, rfl⟩ := (mem_slotSerials _ _).1 inSlots
    exact apart i e he inList

/-- R148: an entry of the roster, ranked or unplaced. -/
def Roster.Holds (x : Roster) (e : RosterEntry) : Prop := (∃ i : Rank, x.slots[i] = some e) ∨ e ∈ x.unplaced

theorem ageLaw_iff (s : State) : s.ageLaw = true ↔ ∀ e, s.roster.Holds e → e.ageLaw s.now = true := by
  have holds (e : RosterEntry) : e ∈ s.roster.entries ↔ s.roster.Holds e := by
    simp [Roster.entries, Roster.Holds, mem_allCirc]
  simp only [State.ageLaw, List.all_eq_true, holds]

/-! ## Changes of the roster -/

/-- R147: a roster that adds no serial, moves none and marks no ranked entry stays sound. -/
theorem Roster.Sound.of_fewer {x y : Roster} (h : x.Sound)
    (slots : ∀ (i : Rank) (e : RosterEntry), y.slots[i] = some e →
      ∃ f, x.slots[i] = some f ∧ f.serial = e.serial ∧ f.clash = e.clash)
    (unplaced : (y.unplaced.map RosterEntry.serial).Sublist (x.unplaced.map RosterEntry.serial)) : y.Sound where
  room := by simpa using unplaced.length_le.trans (by simpa using h.room)
  slots i j e f hi hj same := by
    obtain ⟨e', hi', se, -⟩ := slots i e hi
    obtain ⟨f', hj', sf, -⟩ := slots j f hj
    exact h.slots i j e' f' hi' hj' (se.trans (same.trans sf.symm))
  listed := unplaced.nodup h.listed
  apart i e hi inList := by
    obtain ⟨f, hf, same, -⟩ := slots i e hi
    exact h.apart i f hf (unplaced.subset (same ▸ inList))
  calm i e hi := by
    obtain ⟨f, hf, -, same⟩ := slots i e hi
    exact same ▸ h.calm i f hf

/-- R152, R153: a slot emptied. -/
theorem emptied_sound {x : Roster} (h : x.Sound) (r : Rank) : ({ x with slots := put x.slots r none } : Roster).Sound := by
  refine h.of_fewer (fun i e hi => ⟨e, ?_, rfl, rfl⟩) (List.Sublist.refl _)
  rw [put_get] at hi
  split at hi
  · cases hi
  · exact hi

/-- R148: entries that turn STALE. -/
theorem age_sound {x : Roster} (h : x.Sound) (now : Ms) : (x.age now).Sound := by
  have kept (e : RosterEntry) : (e.age now).serial = e.serial ∧ (e.age now).clash = e.clash := by
    obtain ⟨⟨a, same⟩, -⟩ := age_entry e now
    rw [same]
    exact ⟨rfl, rfl⟩
  refine h.of_fewer (fun i e hi => ?_) ?_
  · obtain ⟨f, hf, rfl⟩ := Option.map_eq_some_iff.1 ((eight_get _ i).symm.trans hi)
    exact ⟨f, hf, (kept f).1.symm, (kept f).2.symm⟩
  · have same : (x.age now).unplaced.map RosterEntry.serial = x.unplaced.map RosterEntry.serial := by
      simp [Roster.age, Function.comp_def, kept]
    rw [same]

/-- R150: the slots without a serial hold the others as they stood. -/
theorem slotsWithout_some {x : Roster} {n : Serial} {i : Rank} {e : RosterEntry} :
    (x.slotsWithout n)[i] = some e ↔ x.slots[i] = some e ∧ e.serial ≠ n := by
  have at_ : (x.slotsWithout n)[i] = _ := eight_get _ i
  rw [at_]
  cases h : x.slots[i] with
  | none => simp
  | some f =>
    by_cases own : f.serial = n
    · simp only [Option.map_some, own, if_true, reduceCtorEq, Option.some.injEq, false_iff, not_and, not_not]
      rintro rfl
      exact own
    · simp only [Option.map_some, Option.some.injEq, own, if_false, iff_self_and]
      rintro rfl
      exact own

/-- R150: a roster with a STATUS taken into a slot holds it there, and others where they stood. -/
theorem intoSlot_some {x : Roster} {r i : Rank} {e f : RosterEntry} (h : (x.intoSlot r e).1.slots[i] = some f) :
    i = r ∧ f = e ∨ x.slots[i] = some f ∧ f.serial ≠ e.serial := by
  have at_ : (x.intoSlot r e).1.slots[i] = if i = r then some e else (x.slotsWithout e.serial)[i] := put_get _ _ _ _
  rw [at_] at h
  split at h
  next here => exact .inl ⟨here, (Option.some.inj h).symm⟩
  next => exact .inr (slotsWithout_some.1 h)

/-- R150: a STATUS taken into a slot. -/
theorem intoSlot_sound {x : Roster} (h : x.Sound) (r : Rank) {e : RosterEntry} (calm : e.clash = false) :
    (x.intoSlot r e).1.Sound := by
  obtain ⟨-, list, -⟩ := intoSlot_spec x r e
  have fewer : ((x.intoSlot r e).1.unplaced.map RosterEntry.serial).Sublist (x.unplaced.map RosterEntry.serial) := by
    rw [list]
    exact List.filter_sublist.map _
  have gone : e.serial ∉ (x.intoSlot r e).1.unplaced.map RosterEntry.serial := by
    rw [list]
    simp
  refine ⟨by simpa using fewer.length_le.trans (by simpa using h.room), fun i j f g hi hj same => ?_,
    fewer.nodup h.listed, fun i f hi => ?_, fun i f hi => ?_⟩
  · rcases intoSlot_some hi with ⟨rfl, rfl⟩ | ⟨hf, sf⟩ <;> rcases intoSlot_some hj with ⟨rfl, rfl⟩ | ⟨hg, sg⟩
    · rfl
    · exact absurd same.symm sg
    · exact absurd same sf
    · exact h.slots i j f g hf hg same
  · rcases intoSlot_some hi with ⟨-, rfl⟩ | ⟨hf, -⟩
    · exact gone
    · exact fun inList => h.apart i f hf (fewer.subset inList)
  · rcases intoSlot_some hi with ⟨-, rfl⟩ | ⟨hf, -⟩
    · exact calm
    · exact h.calm i f hf

theorem lists_iff (x : Roster) (n : Serial) : x.lists n = true ↔ n ∈ x.unplaced.map RosterEntry.serial := by
  simp [Roster.lists]

/-- R150, R151: a STATUS for the unplaced list. -/
theorem intoList_sound {x : Roster} (h : x.Sound) (e : RosterEntry) : (x.intoList e).1.Sound := by
  rcases intoList_cases x e with ⟨-, eq⟩ | ⟨fresh, room, eq, -⟩ | ⟨-, -, eq⟩ <;> rw [eq]
  · refine h.of_fewer (fun i f hf => ⟨f, hf, rfl, rfl⟩) ?_
    have same : (x.unplaced.map fun o => if o.serial = e.serial then e else o).map RosterEntry.serial =
        x.unplaced.map RosterEntry.serial := by
      rw [List.map_map]
      refine List.map_congr_left fun o _ => ?_
      show RosterEntry.serial (if _ then _ else _) = _
      split
      next own => exact own.symm
      next => rfl
    show (List.map _ _).Sublist _
    rw [same]
  · have fresh' : e.serial ∉ x.unplaced.map RosterEntry.serial := fun inList => by
      rw [(lists_iff _ _).2 inList] at fresh
      cases fresh
    refine ⟨by simpa using room, fun i j f g hi hj => ?_, ?_, fun i f hi => ?_, fun i f hi => ?_⟩
    · exact h.slots i j f g (slotsWithout_some.1 hi).1 (slotsWithout_some.1 hj).1
    · show (List.map _ (_ ++ [e])).Nodup
      rw [List.map_append]
      exact List.nodup_append'.2 ⟨h.listed, List.nodup_singleton _, by simpa [List.Disjoint] using fresh'⟩
    · obtain ⟨hf, other⟩ := slotsWithout_some.1 hi
      show f.serial ∉ List.map _ (_ ++ [e])
      rw [List.map_append]
      simpa [other] using h.apart i f hf
    · exact h.calm i f (slotsWithout_some.1 hi).1
  · exact h

/-- R150, R151: a STATUS placed, whatever its claim. -/
theorem place_sound {s : State} (h : s.roster.Sound) (x : RxHeader) (rep : Report) : (s.place x rep).1.Sound := by
  unfold State.place
  cases s.destination x with
  | slot r => exact intoSlot_sound h r rfl
  | unplaced clash => exact intoList_sound h _

/-- R153: a STATUS goes to no closed slot. -/
theorem place_closed {s : State} {r : Rank} (ranked : s.rank.state = .ranked r) (free : s.roster.slots[r] = none)
    (x : RxHeader) (rep : Report) : (s.place x rep).1.slots[r] = none := by
  unfold State.place
  cases dest : s.destination x with
  | slot q =>
    obtain ⟨-, -, opened, -⟩ := destination_slot dest
    have other : r ≠ q := fun same => opened (same ▸ ranked)
    refine ((intoSlot_spec _ q _).2.2 r other).trans ?_
    rw [free]
    simp
  | unplaced clash =>
    dsimp only
    rcases intoList_cases s.roster (s.entryFrom x rep clash) with ⟨-, eq⟩ | ⟨-, -, eq, -⟩ | ⟨-, -, eq⟩ <;> rw [eq]
    · exact free
    · show (s.roster.slotsWithout _)[r] = none
      rw [Option.eq_none_iff_forall_ne_some]
      intro e he
      have stood := (slotsWithout_some.1 he).1
      rw [free] at stood
      cases stood
    · exact free

/-- R148, R150: the entries of a roster after a STATUS are entries it held and the one the STATUS makes. -/
theorem place_holds {s : State} {x : RxHeader} {rep : Report} {e : RosterEntry} (h : (s.place x rep).1.Holds e) :
    s.roster.Holds e ∨ ∃ clash, e = s.entryFrom x rep clash := by
  have without {n : Serial} {i : Rank} (he : (s.roster.slotsWithout n)[i] = some e) : s.roster.Holds e :=
    .inl ⟨i, (slotsWithout_some.1 he).1⟩
  unfold State.place at h
  cases dest : s.destination x with
  | slot r =>
    rw [dest] at h
    rcases h with ⟨i, hi⟩ | listed
    · rcases intoSlot_some hi with ⟨-, same⟩ | ⟨stood, -⟩
      · exact .inr ⟨false, same⟩
      · exact .inl (.inl ⟨i, stood⟩)
    · exact .inl (.inr (List.mem_filter.1 listed).1)
  | unplaced clash =>
    rw [dest] at h
    dsimp only at h
    rcases intoList_cases s.roster (s.entryFrom x rep clash) with ⟨-, eq⟩ | ⟨-, -, eq, -⟩ | ⟨-, -, eq⟩ <;> rw [eq] at h
    · rcases h with slot | listed
      · exact .inl (.inl slot)
      · obtain ⟨o, ho, rfl⟩ := List.mem_map.1 listed
        split
        · exact .inr ⟨clash, rfl⟩
        · exact .inl (.inr ho)
    · rcases h with ⟨i, hi⟩ | listed
      · exact .inl (without hi)
      · rcases List.mem_append.1 listed with old | new
        · exact .inl (.inr old)
        · exact .inr ⟨clash, List.mem_singleton.1 new⟩
    · exact .inl h

end Sys2Proof.Machine
end

section
/-! SUPPORT. Every row passes the laws of rank, roster and age on (R143, R147, R148), and so does a step. -/

namespace Sys2Proof.Machine

/-! ## What the laws read -/

/-- What the laws of rank, roster and age speak of. -/
def State.placing (s : State) := (s.cfg, s.ticks, s.rank.state, s.roster)

theorem ite_placing {s t : State} {p : Prop} [Decidable p] (h : t.placing = s.placing) :
    (if p then t else s).placing = s.placing := by
  split
  · exact h
  · rfl

/-- The fault list, WARN, the event queue and the flags are none of it. -/
theorem ListOnly.placing {s t : State} (h : ListOnly s t) : t.placing = s.placing := by
  unfold ListOnly at h
  rw [h]
  rfl

/-! ## The shared operations -/

theorem raise_placing (s : State) (b : EventBody) : (s.raise b).placing = s.placing := (raise_listOnly s b).placing

theorem coastEdge_placing (b s : State) : (coastEdge b s).placing = s.placing := by
  rw [coastEdge_frame]
  rfl

theorem announce_placing (b s : State) : (announce b s).placing = s.placing := by
  rw [announce_frame]
  rfl

theorem putSlot_placing (s : State) (k : TKind) (f : Slots → Slots) : (s.putSlot k f).placing = s.placing := by
  rcases putSlot_cases s k f with ⟨_, e⟩ | ⟨_, e⟩ <;> rw [e]
  rfl

theorem arbitrate_placing (s : State) : s.arbitrate.placing = s.placing := by
  rw [arbitrate_frame]
  rfl

theorem release_placing (s : State) : s.release.placing = s.placing := arbitrate_placing _

theorem startReading_placing (s : State) (tag : BitVec 4) (c : Circ) : (s.startReading tag c).placing = s.placing :=
  arbitrate_placing _

theorem reevaluatePeriod_placing (b s : State) : (reevaluatePeriod b s).placing = s.placing := by
  rw [reevaluatePeriod_frame]
  rfl

theorem epochChange_placing (s : State) : s.epochChange.placing = s.placing := by
  rw [epochChange_frame]
  rfl

theorem confirmEdge_placing (s : State) (c : Circ) (vm : Nat) : (s.confirmEdge c vm).placing = s.placing := by
  unfold State.confirmEdge
  dsimp only
  split
  · rfl
  · split
    · exact reevaluatePeriod_placing _ _
    · rfl

theorem takeSpotPair_placing (s : State) (c : Circ) (vm im : Nat) : (s.takeSpotPair c vm im).placing = s.placing := by
  unfold State.takeSpotPair
  split
  · rfl
  · refine ite_placing ?_
    rw [addSpotPair_frame]
    rfl

/-! ## Judgement and the write engine -/

theorem startWrite_placing (s : State) : s.startWrite.placing = s.placing := by
  rw [startWrite_frame]
  rfl

theorem endWrite_placing (s : State) (w : StoreWrite) (readback : List Byte) :
    (s.endWrite w readback).placing = s.placing := by
  have written : (s.written w readback).placing = s.placing := by
    rw [written_frame]
    rfl
  exact (congrArg State.placing (endWrite_eq s w readback)).trans ((startWrite_placing _).trans written)

theorem storeConfig_placing (block : List Byte) (s : State) : (s.storeConfig block).placing = s.placing := by
  rcases storeConfig_cases block s with ⟨_, e⟩ | ⟨_, _, e⟩ | ⟨_, _, e⟩ <;> rw [e]
  · rfl
  · rfl
  · exact startWrite_placing _

theorem handSample_placing (s : State) (c : Circ) (sample : Nat) : (s.handSample c sample).placing = s.placing := by
  rcases handSample_cases s c sample with ⟨_, e⟩ | ⟨_, _, _, e⟩ | ⟨_, _, _, e⟩ <;> rw [e]
  · rfl
  · unfold State.finishLearning
    dsimp only
    split
    · exact startWrite_placing _
    · rfl

theorem applyVerdict_placing (s : State) (c : Circ) (v : Option Verdict) : (s.applyVerdict c v).placing = s.placing := by
  have filtered (v : Verdict) : (s.applyFilter c v).placing = s.placing := (applyFilter_listed s c v).frame.placing
  rcases applyVerdict_cases s c v with e | ⟨_, _, _, _, e⟩ | ⟨_, _, _, _, _, e⟩ <;> rw [e]
  · exact filtered _
  · exact (handSample_placing _ _ _).trans (filtered _)

theorem judge_placing (s : State) (c : Circ) (r : Rec) : (s.judge c r).placing = s.placing := by
  unfold State.judge
  rw [formBalance_frame]
  exact applyVerdict_placing _ _ _

/-! ## Telegrams, the transmitter and the port -/

theorem takeCommand_placing (h : RxHeader) (s : State) (m : CommandContent) :
    (s.takeCommand h m).placing = s.placing := by
  have clash := coastEdge_placing s s.clashCommand
  unfold State.takeCommand
  dsimp only
  split
  · split
    · exact (headClashInput_listOnly _ _).placing.trans clash
    · exact clash
  · split
    · split
      · rcases trackCommand_cases s h.serial m with e | e | e <;> rw [e] <;> rfl
      · rfl
    · rfl

theorem tellFree_placing (s : State) (k : TKind) : (s.tellFree k).placing = s.placing := by
  cases k with
  | query =>
    show s.offerQuery.placing = _
    unfold State.offerQuery
    split
    · rfl
    · exact putSlot_placing _ _ _
  | reading =>
    show s.offerReading.placing = _
    unfold State.offerReading
    split
    · rfl
    · exact putSlot_placing _ _ _
  | command => rfl
  | learn => rfl
  | status => rfl

theorem complete_placing (s : State) (a : Attempt) : (s.complete a).placing = s.placing := by
  unfold State.complete
  dsimp only
  split
  · rfl
  · exact tellFree_placing _ _

theorem reply_placing (s : State) (outcome : Byte) (data : List Byte) : (s.reply outcome data).placing = s.placing := rfl

theorem headOnly_placing {act : State → State} (h : ∀ s, (act s).placing = s.placing) (s : State) :
    (State.headOnly act s).placing = s.placing := by
  rcases headOnly_cases act s with ⟨_, e⟩ | ⟨_, e⟩ <;> rw [e]
  · exact h s
  · rfl

theorem popEvent_placing (s : State) : s.popEvent.placing = s.placing := by
  rcases popEvent_cases s with ⟨_, e⟩ | ⟨_, _, _, e⟩ <;> rw [e] <;> rfl

theorem readEntry_placing (index : Byte) (s : State) : (s.readEntry index).placing = s.placing := by
  unfold State.readEntry
  split <;> rfl

theorem ack_placing (index : Byte) (n : Serial) (s : State) : (s.ack index n).placing = s.placing := by
  rcases ack_cases s index n with ⟨_, e⟩ | ⟨_, _, _, e⟩ | ⟨_, _, _, _, e⟩ <;> rw [e]
  · rfl
  · rfl
  · exact (ackAt_listOnly _ _).placing

theorem ackAll_placing (s : State) : s.ackAll.placing = s.placing := (ListOnly.foldl ackAt_listOnly _ s).placing

theorem clearFlags_placing (mask : Byte) (s : State) : (s.clearFlags mask).placing = s.placing := rfl

theorem requestLearn_placing (stations circuits : Byte) (s : State) :
    (s.requestLearn stations circuits).placing = s.placing := by
  rcases requestLearn_cases s stations circuits with ⟨_, e⟩ | ⟨_, _, _, e⟩ | ⟨_, _, _, e⟩ <;> rw [e]
  · rfl
  · rfl
  · exact putSlot_placing _ _ _

theorem requestSpot_placing (r : Rank) (c : Circ) (s : State) : (s.requestSpot r c).placing = s.placing := by
  rcases requestSpot_cases s r c with ⟨_, e⟩ | ⟨_, _, _, e⟩ | ⟨_, _, _, e⟩ | ⟨_, _, _, _, _, e⟩ <;> rw [e]
  · rfl
  · exact arbitrate_placing _
  · rfl
  · show (State.queueQuery _ _).placing = _
    unfold State.queueQuery
    split
    · rfl
    · exact putSlot_placing _ _ _

/-! ## The readers of the roster -/

theorem listStatus_placing (s : State) (before : Roster) (h : RxHeader) (prev : Option Report) (rep : Report)
    (out : Placement) : (s.listStatus before h prev rep out).placing = s.placing := by
  unfold State.listStatus
  split
  · exact (statusInput_listOnly _ _ _ _ _).placing
  · dsimp only
    split
    · exact ((clashChange_listOnly _ _ _ _).trans (statusInput_listOnly _ _ _ _ _)).placing
    · exact ((statusInput_listOnly _ _ _ _ _).trans (clashChange_listOnly _ _ _ _)).placing

theorem learnStatus_placing (s : State) (n : Serial) (rep : Report) (out : Placement) :
    (s.learnStatus n rep out).placing = s.placing := by
  have tracked : (s.trackLearning n rep).placing = s.placing := by
    unfold State.trackLearning
    repeat' split
    · rfl
    · rfl
    · exact raise_placing _ _
    all_goals rfl
  cases out with
  | notTaken => rfl
  | new => exact tracked
  | refreshed => exact tracked
  | moved src dst => exact tracked

/-- R123, R156: the readers of a STATUS leave the roster as the STATUS made it. -/
theorem takeStatus_placing (s : State) (h : RxHeader) (rep : Report) :
    (s.takeStatus h rep).placing = (s.rosterStatus h rep).placing := by
  have unlisted (s : State) (out : Placement) : (s.noteUnlisted out).placing = s.placing := by cases out <;> rfl
  unfold State.takeStatus
  dsimp only
  split
  · exact (learnStatus_placing _ _ _ _).trans <| (raiseRankChanged_listOnly _ _ _).placing.trans <|
      (unlisted _ _).trans (listStatus_placing _ _ _ _ _ _)
  · rfl

theorem trackExpiry_placing (s : State) (n : Serial) : (s.trackExpiry n).placing = s.placing :=
  ite_placing (raise_placing _ _)

theorem expireSlot_placing (s : State) (r : Rank) (e : RosterEntry) :
    (s.expireSlot r e).placing =
      ({ s with roster := { s.roster with slots := put s.roster.slots r none } } : State).placing := by
  unfold State.expireSlot
  dsimp only
  split
  · exact (trackExpiry_placing _ _).trans (loseStation_listOnly _ _ _).placing
  · rfl

theorem expireUnplaced_placing (s : State) (i : Nat) (e : RosterEntry) :
    (s.expireUnplaced i e).placing =
      ({ s with roster := { s.roster with unplaced := s.roster.unplaced.eraseIdx i } } : State).placing := by
  unfold State.expireUnplaced
  dsimp only
  split
  · exact (trackExpiry_placing _ _).trans (ite_placing (rankClashInput_listOnly _ _ _ _).placing)
  · rfl

/-! ## The relation -/

/-- The laws of rank, roster and age pass from one state to another. -/
structure PlacingPasses (s t : State) : Prop where
  rank : s.rankLaw = true → t.rankLaw = true
  roster : s.rosterLaw = true → t.rosterLaw = true
  age : s.ageLaw = true → t.ageLaw = true

theorem PlacingPasses.same {s t : State} (h : t.placing = s.placing) : PlacingPasses s t := by
  simp only [State.placing, Prod.mk.injEq] at h
  obtain ⟨cfg, ticks, rank, roster⟩ := h
  have head : t.isHead = s.isHead := by rw [State.isHead, cfg]; rfl
  have now : t.now = s.now := by rw [State.now, ticks]; rfl
  refine ⟨?_, ?_, ?_⟩
  · rw [rankLaw_iff, rankLaw_iff, head, rank]; exact id
  · rw [rosterLaw_iff, rosterLaw_iff, rank, roster]; exact id
  · rw [ageLaw_iff, ageLaw_iff, now, roster]; exact id

theorem PlacingPasses.refl (s : State) : PlacingPasses s s := .same rfl

theorem PlacingPasses.trans {s t u : State} (h : PlacingPasses s t) (g : PlacingPasses t u) : PlacingPasses s u :=
  ⟨g.rank ∘ h.rank, g.roster ∘ h.roster, g.age ∘ h.age⟩

/-- What comes before leaves rank and roster as they are. -/
theorem PlacingPasses.after {s t u : State} (h : PlacingPasses t u) (before : t.placing = s.placing) :
    PlacingPasses s u := (PlacingPasses.same before).trans h

/-- What follows leaves rank and roster as they are. -/
theorem PlacingPasses.andSame {s t u : State} (h : PlacingPasses s t) (after : u.placing = t.placing) :
    PlacingPasses s u := h.trans (.same after)

/-- A row that acts only where its condition holds. -/
theorem PlacingPasses.ite {s t : State} {p : Prop} [Decidable p] (h : p → PlacingPasses s t) :
    PlacingPasses s (if p then t else s) := by
  split
  next c => exact h c
  next => exact .refl s

/-! ## The rows that move rank or roster -/

/-- R147, R150, R153: a STATUS placed. -/
theorem rosterStatus_passes (s : State) (h : RxHeader) (rep : Report) : PlacingPasses s (s.rosterStatus h rep) where
  rank := id
  roster law := by
    rw [rosterLaw_iff] at law ⊢
    obtain ⟨sound, closed⟩ := law
    exact ⟨place_sound sound h rep, fun r ranked => place_closed (s := s) ranked (closed r ranked) h rep⟩
  age law := by
    rw [ageLaw_iff] at law ⊢
    intro e held
    rcases place_holds held with old | ⟨clash, rfl⟩
    · exact law e old
    · simp [RosterEntry.ageLaw, State.entryFrom, State.now, State.rosterStatus]

/-- R147, R152: entries that leave the roster. -/
theorem fewer_passes {s : State} {x : Roster} (sound : s.roster.Sound → x.Sound)
    (slots : ∀ (i : Rank) (e : RosterEntry), x.slots[i] = some e → s.roster.slots[i] = some e)
    (unplaced : x.unplaced.Sublist s.roster.unplaced) : PlacingPasses s { s with roster := x } where
  rank := id
  roster law := by
    rw [rosterLaw_iff] at law ⊢
    obtain ⟨old, closed⟩ := law
    refine ⟨sound old, fun r ranked => Option.eq_none_iff_forall_ne_some.2 fun e he => ?_⟩
    cases (closed r ranked).symm.trans (slots r e he)
  age law := by
    rw [ageLaw_iff] at law ⊢
    rintro e (⟨i, hi⟩ | listed)
    · exact law e (.inl ⟨i, slots i e hi⟩)
    · exact law e (.inr (unplaced.subset listed))

theorem put_none_some {α : Type} {v : Vector (Option α) 8} {r i : Circ} {x : α} (h : (put v r none)[i] = some x) :
    i ≠ r ∧ v[i] = some x := by
  rw [put_get] at h
  split at h
  · cases h
  next other => exact ⟨other, h⟩

theorem emptied_passes (s : State) (r : Rank) :
    PlacingPasses s { s with roster := { s.roster with slots := put s.roster.slots r none } } :=
  fewer_passes (fun h => emptied_sound h r) (fun _ _ h => (put_none_some h).2) (List.Sublist.refl _)

theorem erased_passes (s : State) (i : Nat) :
    PlacingPasses s { s with roster := { s.roster with unplaced := s.roster.unplaced.eraseIdx i } } :=
  fewer_passes (fun h => h.of_fewer (fun _ e he => ⟨e, he, rfl, rfl⟩) ((List.eraseIdx_sublist _ _).map _))
    (fun _ _ h => h) (List.eraseIdx_sublist _ _)

/-- R143, R153: a unit's new rank unit, which is at no rank 0 unless the old one was; a rank entered closes its slot. -/
theorem setRank_passes {s : State} {u : RankUnit} (unit : s.isHead = false)
    (rank : s.rank.state ≠ .ranked 0 → u.state ≠ .ranked 0) : PlacingPasses s (s.setRank u) := by
  have law (t : State) (cfg : t.cfg = s.cfg) (state : t.rank = u) : s.rankLaw = true → t.rankLaw = true := by
    have still : t.isHead = false := by rw [← unit, State.isHead, State.isHead, cfg]
    rw [rankLaw_iff, rankLaw_iff, unit, still, state]
    exact fun ⟨_, h⟩ => ⟨nofun, fun _ => rank (h rfl)⟩
  by_cases same : u.state = s.rank.state
  · rw [State.setRank, if_pos same]
    exact .same (by rw [State.placing, same]; rfl)
  · refine ⟨law _ (setRank_cfg _ _) ?_, fun roster => ?_, fun age => ?_⟩
    · rcases setRank_cases s u with e | ⟨_, _, e⟩ <;> rw [e]
    · rw [rosterLaw_iff] at roster ⊢
      rw [State.setRank, if_neg same, State.closeOwnSlot]
      cases state : u.state with
      | ranked r =>
        refine ⟨emptied_sound roster.1 r, fun q ranked => ?_⟩
        cases state.symm.trans ranked
        exact put_same _ _ _
      | acquiring => exact ⟨roster.1, fun q ranked => nomatch state.symm.trans ranked⟩
      | unranked cause => exact ⟨roster.1, fun q ranked => nomatch state.symm.trans ranked⟩
    · rw [ageLaw_iff] at age ⊢
      intro e held
      rcases setRank_cases s u with eq | ⟨r, _, eq⟩ <;> rw [eq] at held ⊢
      · exact age e held
      · rcases held with ⟨i, hi⟩ | listed
        · exact age e (.inl ⟨i, (put_none_some hi).2⟩)
        · exact age e (.inr listed)

/-- R143: a burst that ends decides for no rank 0. -/
theorem endBurst_rank (u : RankUnit) (b : FrontBurst) (now : Ms) (h : u.state ≠ .ranked 0) :
    (u.endBurst b now).state ≠ .ranked 0 := by
  rcases endBurst_cases u b now with ⟨_, e⟩ | ⟨_, _, _, _, e | e⟩ <;> rw [e]
  · exact h
  · exact h
  · rcases decide_cases u.state b.count with d | ⟨r, r0, _, d⟩ | ⟨_, d⟩ <;> rw [d]
    · exact h
    · simpa using r0
    · exact nofun

/-- R141: a burst ends on a unit alone. -/
theorem endedBurst_spec {s : State} {b : FrontBurst} (h : s.endedBurst = some b) :
    s.isHead = false ∧ s.pins.front = false ∧ s.rank.openBurst = some b ∧ b.lowFrom + 40 ≤ s.ticks := by
  unfold State.endedBurst at h
  split at h
  · cases h
  next low =>
    obtain ⟨opened, past⟩ := Option.filter_eq_some_iff.1 h
    simpa [opened, and_assoc] using And.intro low (of_decide_eq_true past)

/-- R143, R147: whatever the station was, a start-up reset meets the three laws. -/
theorem startUp_placingPasses (s : State) : PlacingPasses s s.startUp := by
  have start : PlacingPasses s s.startValues := by
    have none_ (i : Rank) : s.startValues.roster.slots[i] = none := Vector.getElem_replicate i.isLt
    refine ⟨fun _ => ?_, fun _ => ?_, fun _ => ?_⟩
    · rw [rankLaw_iff]
      have head : s.startValues.isHead = decide (s.pins.roleOf = .head) := rfl
      have rank : s.startValues.rank = .start s.pins.roleOf := rfl
      rw [head, rank]
      cases s.pins.roleOf <;> simp [RankUnit.start]
    · rw [rosterLaw_iff]
      refine ⟨⟨Nat.zero_le _, fun i j e f hi => ?_, List.nodup_nil, fun i e hi => ?_, fun i e hi => ?_⟩,
        fun r _ => none_ r⟩
      all_goals cases (none_ i).symm.trans hi
    · rw [ageLaw_iff]
      rintro e (⟨i, hi⟩ | listed)
      · cases (none_ i).symm.trans hi
      · cases listed
  refine start.andSame ?_
  rw [startUp_eq]
  rfl

theorem arrive_passesPlacing {α : Type} {consume : State → α → State} (h : ∀ s a, PlacingPasses s (consume s a))
    (s : State) (k : TKind) (content : Option α) : PlacingPasses s (s.arrive k content consume) := by
  rcases arrive_cases s k content consume with ⟨_, e⟩ | ⟨_, _, e⟩ | ⟨c, _, _, e⟩ <;> rw [e]
  · exact .same rfl
  · exact .same rfl
  · exact (h _ c).after rfl

theorem atRelease_passesPlacing {act : State → State} (h : ∀ s, PlacingPasses s (act s)) (s : State) :
    PlacingPasses s (s.atRelease act) := by
  rcases atRelease_cases s act with ⟨_, e⟩ | ⟨_, e⟩ | ⟨_, e⟩ | ⟨_, e⟩ <;> rw [e]
  · exact .refl s
  · exact .same rfl
  · exact (h _).after rfl
  · exact (h _).after rfl

theorem atRelease_placing {act : State → State} (h : ∀ s, (act s).placing = s.placing) (s : State) :
    PlacingPasses s (s.atRelease act) := atRelease_passesPlacing (fun s => .same (h s)) s

theorem actOnLearn_passesPlacing (s : State) (e circuits : Byte) : PlacingPasses s (s.actOnLearn e circuits) := .same rfl

/-! ## Every row -/

/-- Every row passes the laws of rank, roster and age on. -/
theorem exec_placingPasses (c : Instr) (s : State) : ∃ t, exec c s = .next t ∧ PlacingPasses s t := by
  cases c with
  -- The rows that move rank or roster.
  | startUpReset => exact ⟨_, rfl, startUp_placingPasses s⟩
  | restart => exact ⟨_, rfl, atRelease_passesPlacing startUp_placingPasses s⟩
  | statusTelegram h p =>
    exact ⟨_, rfl, arrive_passesPlacing
      (fun s rep => (rosterStatus_passes s h rep).andSame (takeStatus_placing s h rep)) _ _ _⟩
  | rosterExpiry place =>
    refine ⟨_, rfl, ?_⟩
    split
    · exact .refl s
    · split
      · exact (emptied_passes s _).andSame (expireSlot_placing _ _ _)
      · exact (erased_passes s _).andSame (expireUnplaced_placing _ _ _)
  | burstEnd =>
    refine ⟨_, rfl, ?_⟩
    split
    · exact .refl s
    next b ended =>
      exact (setRank_passes (endedBurst_spec ended).1 (endBurst_rank s.rank b s.now)).andSame
        (announce_placing _ _)
  | rankSilenceDeadline =>
    refine ⟨_, rfl, .ite fun due => ?_⟩
    have unit : s.isHead = false := by
      simp only [State.silenceDue, Bool.and_eq_true, Bool.not_eq_true'] at due
      exact due.1
    have noRank : s.rank.silent.state ≠ .ranked 0 := nofun
    exact (setRank_passes unit fun _ => noRank).andSame (announce_placing _ _)
  -- The converter and the circuits.
  | scanStep => exact ⟨_, rfl, .ite fun _ => .same (arbitrate_placing _)⟩
  | pairEnd v i =>
    refine ⟨_, rfl, ?_⟩
    split
    · exact .same (by rw [afterPair_frame, takeSample_frame]; rfl)
    all_goals exact .refl s
  | supplyConversionEnd v =>
    refine ⟨_, rfl, ?_⟩
    split
    · exact .same ((announce_placing _ _).trans ((release_placing _).trans (coastEdge_placing _ _)))
    all_goals exact .refl s
  | voltageReConversionEnd v =>
    refine ⟨_, rfl, ?_⟩
    split
    · exact .same ((announce_placing _ _).trans ((release_placing _).trans (confirmEdge_placing _ _ _)))
    all_goals exact .refl s
  | spotPairEnd v i =>
    refine ⟨_, rfl, ?_⟩
    split
    · exact .same ((release_placing _).trans (takeSpotPair_placing _ _ _ _))
    all_goals exact .refl s
  | missedFlash c => exact ⟨_, rfl, .ite fun _ => .same (reevaluatePeriod_placing _ _)⟩
  | lingerEnd c => exact ⟨_, rfl, .ite fun _ => .same (reevaluatePeriod_placing _ _)⟩
  | takenForJudgement c =>
    refine ⟨_, rfl, ?_⟩
    split
    · exact .same ((announce_placing _ _).trans (judge_placing _ _ _))
    · exact .refl s
  | learnDeadline c => exact ⟨_, rfl, .ite fun _ => .same (announce_placing _ _)⟩
  | storeWriteEnd readback =>
    refine ⟨_, rfl, ?_⟩
    split
    · exact .same (endWrite_placing _ _ _)
    · exact .refl s
  -- The timers and the telegrams.
  | intentDebounce line =>
    exact ⟨_, rfl, .ite fun _ => .same
      ((announce_placing _ _).trans ((coastEdge_placing _ _).trans (epochChange_placing _)))⟩
  | reSendTimer => exact ⟨_, rfl, .ite fun _ => .same (putSlot_placing _ _ _)⟩
  | stalenessTimer => exact ⟨_, rfl, .ite fun _ => .same (announce_placing _ _)⟩
  | statusTimer => exact ⟨_, rfl, .ite fun _ => .same (putSlot_placing _ _ _)⟩
  | holdoff => exact ⟨_, rfl, .ite fun _ => .same (putSlot_placing _ _ _)⟩
  | headClashDeadline =>
    have coast := coastEdge_placing s s.clashEnded
    refine ⟨_, rfl, .ite fun _ => .same ((announce_placing _ _).trans ?_)⟩
    split
    · exact (headClashInput_listOnly _ _).placing.trans coast
    · exact coast
  | commandTelegram h p =>
    exact ⟨_, rfl, (arrive_passesPlacing (fun s m => .same (takeCommand_placing h s m)) _ _ _).andSame
      (announce_placing _ _)⟩
  | learnTelegram h p =>
    exact ⟨_, rfl, (arrive_passesPlacing (fun _ _ => .ite fun _ => actOnLearn_passesPlacing _ _ _) _ _ _).andSame
      (announce_placing _ _)⟩
  | queryTelegram h p =>
    exact ⟨_, rfl, arrive_passesPlacing (fun _ _ => .ite fun _ => .same (startReading_placing _ _ _)) _ _ _⟩
  | readingTelegram h p =>
    exact ⟨_, rfl, arrive_passesPlacing
      (fun _ _ => .ite fun _ => .same (by rw [takeReading_frame]; rfl)) _ _ _⟩
  | completion =>
    refine ⟨_, rfl, ?_⟩
    split
    · exact .same (complete_placing _ _)
    all_goals exact .refl s
  | learnTrackerDeadline serial => exact ⟨_, rfl, .ite fun _ => .same (raise_placing _ _)⟩
  | queryDeadline =>
    refine ⟨_, rfl, ?_⟩
    split
    · exact .refl s
    · exact .same (raise_placing _ _)
  -- Rows that write fields of a circuit, the link, WARN, the clocks or the rank line's pins, under their conditions.
  | silenceDeadline _ | windowClose _ | heldOnClose _ | candidateStart _ _ _ _ | badTelegram _ | warnBlinkHalf
  | trainSeconds | unlistedDeadline | aloneTimer | sendAttempt _ | yieldLine _ | driveFault _ | cutOff _
  | cutOffRecovery _ | lineStuck _ | lineStuckHoldEnd _ | rearBurstStart | rearPulse | frontHighStretch _
  | frameStart =>
    refine ⟨_, rfl, .same ?_⟩
    repeat' split
    all_goals rfl
  -- The requests of the port.
  | badFrame | unknown _ | status | tallies => exact ⟨_, rfl, atRelease_placing (fun _ => reply_placing _ _ _) s⟩
  | event => exact ⟨_, rfl, atRelease_placing (headOnly_placing popEvent_placing) s⟩
  | entry index => exact ⟨_, rfl, atRelease_placing (headOnly_placing (readEntry_placing index)) s⟩
  | ack index serial => exact ⟨_, rfl, atRelease_placing (headOnly_placing (ack_placing index serial)) s⟩
  | ackAll =>
    exact ⟨_, rfl, atRelease_placing (headOnly_placing ackAll_placing) s⟩
  | clearFlags mask => exact ⟨_, rfl, atRelease_placing (headOnly_placing (clearFlags_placing mask)) s⟩
  | learn stations circuits =>
    exact ⟨_, rfl, atRelease_placing (headOnly_placing (requestLearn_placing stations circuits)) s⟩
  | spot rank circuit =>
    refine ⟨_, rfl, atRelease_placing (headOnly_placing fun s => ?_) s⟩
    split
    · split
      · exact requestSpot_placing _ _ _
      · rfl
    · rfl
  | spotResult => exact ⟨_, rfl, atRelease_placing (headOnly_placing fun _ => reply_placing _ _ _) s⟩
  | roster _ | localRead _ =>
    refine ⟨_, rfl, atRelease_placing (fun s => ?_) s⟩
    split <;> rfl
  | storeConfig block => exact ⟨_, rfl, atRelease_placing (storeConfig_placing block) s⟩

/-! ## The step -/

/-- R148: up to an age of 1000 ms FRESH, from it on STALE. -/
theorem entryAgeLaw_iff (e : RosterEntry) (now : Ms) :
    e.ageLaw now = true ↔
      e.heard ≤ now ∧ (e.aged = true → e.heard + 1000 ≤ now) ∧ (e.aged = false → now ≤ e.heard + 1000) := by
  unfold RosterEntry.ageLaw
  cases e.aged <;> simp

theorem ages_false_iff (e : RosterEntry) (now : Ms) :
    e.ages now = false ↔ (e.aged = false → now < e.heard + 1000) := by
  unfold RosterEntry.ages
  cases e.aged <;> simp

/-- R148: entries that turn STALE have reached the age of 1000, and stand where they stood. -/
theorem ageEntries_passes (s : State) : PlacingPasses s s.ageEntries where
  rank := id
  roster law := by
    rw [rosterLaw_iff] at law ⊢
    refine ⟨age_sound law.1 s.now, fun r ranked => ?_⟩
    have at_ : (s.roster.age s.now).slots[r] = _ := eight_get _ r
    exact at_.trans (by rw [law.2 r ranked]; rfl)
  age law := by
    have aged (e : RosterEntry) (h : e.ageLaw s.now = true) : (e.age s.now).ageLaw s.now = true := by
      unfold RosterEntry.age
      split
      next due =>
        have old : e.heard + 1000 ≤ s.now := of_decide_eq_true (Bool.and_eq_true _ _ ▸ due).2
        rw [entryAgeLaw_iff] at h ⊢
        exact ⟨h.1, fun _ => old, nofun⟩
      next => exact h
    rw [ageLaw_iff] at law ⊢
    rintro e (⟨i, hi⟩ | listed)
    · obtain ⟨f, hf, rfl⟩ := Option.map_eq_some_iff.1 ((eight_get _ i).symm.trans hi)
      exact aged f (law f (.inl ⟨i, hf⟩))
    · obtain ⟨f, hf, rfl⟩ := List.mem_map.1 listed
      exact aged f (law f (.inr hf))

/-- R148: 125 µs on, an entry that had no call to turn STALE is still no older than 1000 ms. -/
theorem tick_placingPasses {s : State} (young : s.roster.ages s.now = false) : PlacingPasses s s.tick := by
  rw [(tick_frame s).1]
  refine ⟨id, id, fun law => ?_⟩
  rw [ageLaw_iff] at law ⊢
  intro e held
  have fresh : e.ages s.now = false := by
    simp only [Roster.ages, Bool.or_eq_false_iff, List.any_eq_false, Bool.not_eq_true] at young
    rcases held with ⟨i, hi⟩ | listed
    · have slot := young.1 i (mem_allCirc i)
      have hi' : s.roster.slots[i] = some e := hi
      rw [hi'] at slot
      exact slot
    · exact young.2 e listed
  obtain ⟨heard, stale, young⟩ := (entryAgeLaw_iff e s.now).1 (law e held)
  have soon : (s.ticks + 1) / 8 ≤ s.now + 1 := by unfold State.now; omega
  have later : s.now ≤ (s.ticks + 1) / 8 := Nat.div_le_div_right (Nat.le_succ _)
  exact (entryAgeLaw_iff e _).2 ⟨heard.trans later, fun aged => (stale aged).trans later,
    fun unaged => soon.trans ((ages_false_iff e s.now).1 fresh unaged)⟩

/-- Settles O14: every row passes the laws on (`exec_placingPasses`); on an idle step ageing turns STALE what has reached
1000 ms, and the clock moves on only when no entry has. -/
theorem stepKeepsRankAndRosterLaws : Obligations.StepKeepsRankAndRosterLaws := by
  intro s t h
  have rows (c : Instr) (u : State) (same : u.placing = s.placing) (e : exec c u = .next t) : PlacingPasses s t := by
    obtain ⟨v, ev, pass⟩ := exec_placingPasses c u
    cases ev.symm.trans e
    exact pass.after same
  have pass : PlacingPasses s t := by
    rcases step_cases s with ⟨c, rest, _, e⟩ | ⟨_, _, e⟩ | ⟨c, _, _, _, _, e⟩ | ⟨_, young, _, e⟩
    · exact rows c { s with pending := rest } rfl (e.symm.trans h)
    · cases e.symm.trans h
      exact ageEntries_passes s
    · exact rows c s rfl (e.symm.trans h)
    · cases e.symm.trans h
      exact tick_placingPasses young
  exact ⟨pass.rank, pass.roster, pass.age⟩

end Sys2Proof.Machine
end

section
/-! SUPPORT. The rank line (R140 to R144, R153) and the claim of a header (R149). -/

namespace Sys2Proof.Machine

/-! ## Claims -/

/-- R149: the two cases in which a header claims a rank. -/
theorem claimOf_iff (h : RxHeader) (r : Rank) :
    claimOf h = some r ↔
      h.unranked = false ∧
        (h.head = true ∧ h.rank = 0 ∧ r = 0 ∨ h.head = false ∧ h.rank ≠ 0 ∧ h.rank.toNat = r.val) := by
  unfold claimOf
  cases h.unranked with
  | true => simp
  | false =>
    cases h.head with
    | true =>
      by_cases zero : h.rank = 0
      · simp only [zero, Bool.false_eq_true, if_false, if_true, Option.some.injEq, true_and, reduceCtorEq, false_and,
          or_false]
        exact eq_comm
      · simp only [zero, Bool.false_eq_true, if_false, if_true, reduceCtorEq, false_and, and_false, or_self]
    | false =>
      by_cases zero : h.rank = 0
      · simp [zero]
      · simp only [zero, Bool.false_eq_true, if_false, Option.some.injEq, true_and, false_and, false_or, ne_eq,
          not_false_eq_true]
        exact Fin.ext_iff

/-- R117, R149: the header of a RANKED unit carries its rank. -/
theorem ownHeader_ranked {s : State} {r : Rank} (unit : s.isHead = false) (ranked : s.rank.state = .ranked r) :
    s.ownHeader = ⟨BitVec.ofNat 3 r.val, false, false, s.cfg.serial⟩ := by
  simp [State.ownHeader, unit, ranked]

/-- Settles O13: the cases of a claim (`claimOf_iff`), applied to the headers that a station forms. -/
theorem claimOfEveryHeader : Obligations.ClaimOfEveryHeader := by
  refine fun h s rep clash => ⟨claimOf_iff h, rfl, fun head => ?_, fun r unit ranked nonzero => ?_⟩
  · rw [State.ownHeader, if_pos head, claimOf_iff]
    exact ⟨rfl, .inl ⟨rfl, rfl, rfl⟩⟩
  · have field : (BitVec.ofNat 3 r.val).toNat = r.val := Nat.mod_eq_of_lt r.isLt
    rw [ownHeader_ranked unit ranked, claimOf_iff]
    refine ⟨rfl, .inr ⟨rfl, fun zero => nonzero (Fin.ext ?_), field⟩⟩
    have none_ : BitVec.ofNat 3 r.val = 0 := zero
    rw [← field, none_]
    rfl

/-! ## REAR -/

/-- R140: a row of REAR that comes at its moment, and one that does not. -/
theorem rearBurstStart_due {s : State} (due : s.rear.next ≤ s.now) :
    exec .rearBurstStart s = .next { s with rear := s.rear.start s.rank.state } := by
  simp [exec, execRearBurstStart, State.rearDue, due]

theorem rearBurstStart_early {s : State} (early : s.now < s.rear.next) : exec .rearBurstStart s = .next s := by
  simp [exec, execRearBurstStart, State.rearDue, early]

theorem rearPulse_due {s : State} {b : RearBurst} (burst : s.rear.burst = some b) (due : b.start + b.edges ≤ s.now) :
    exec .rearPulse s = .next { s with rear := s.rear.drive b } := by
  simp [exec, execRearPulse, State.edgeDue, RearBurst.edgeAt, burst, Option.filter, due]

theorem rearPulse_early {s : State} {b : RearBurst} (burst : s.rear.burst = some b)
    (early : s.now < b.start + b.edges) : exec .rearPulse s = .next s := by
  simp [exec, execRearPulse, State.edgeDue, RearBurst.edgeAt, burst, Option.filter, Nat.not_le.2 early]

/-- Settles O50: a RANKED station begins a burst at each multiple of 100 ms, and an edge is the last or not. -/
theorem rearBurstsCountTheRank : Obligations.RearBurstsCountTheRank := by
  refine fun s => ⟨fun r due ranked => ?_, fun due unranked => ?_, rearBurstStart_early,
    fun b burst due => ⟨fun more => ?_, fun last => ?_⟩, fun b => rearPulse_early⟩
  · rw [rearBurstStart_due due, ranked]
    rfl
  · have none_ : s.rank.state.burstAt s.rear.next = none := by
      rw [Option.eq_none_iff_forall_ne_some]
      intro b begins
      obtain ⟨r, ranked, _⟩ := burstAt_some begins
      exact unranked r ranked
    rw [rearBurstStart_due due, Rear.start, none_]
  · rw [rearPulse_due burst due, Rear.drive, if_pos more]
  · rw [rearPulse_due burst due, Rear.drive, if_neg (Nat.not_lt.2 last)]

/-! ## FRONT -/

/-- R141: a stretch below 500 µs is no pulse, one up to 2000 µs counts, and a longer one makes the burst malformed. -/
theorem frontStretch_short {us : Nat} (short : us < 500) (b : Option FrontBurst) (t : Nat) :
    frontStretch b us t = b := if_pos short

theorem frontStretch_pulse {us : Nat} (lo : 500 ≤ us) (hi : us ≤ 2000) (b : Option FrontBurst) (t : Nat) :
    frontStretch b us t = match b with
      | none => some ⟨1, false, t⟩
      | some b => some { b with count := satInc 8 b.count, lowFrom := t } :=
  (if_neg (Nat.not_lt.2 lo)).trans (if_pos hi)

theorem frontStretch_long {us : Nat} (long : 2000 < us) (b : Option FrontBurst) (t : Nat) :
    frontStretch b us t = match b with
      | none => some ⟨0, true, t⟩
      | some b => some { b with malformed := true, lowFrom := t } :=
  (if_neg (by omega)).trans (if_neg (Nat.not_le.2 long))

/-- R143: a run of three of a count from 1 to 7 decides for that rank. -/
theorem decide_ranked {v : Rank} (nonzero : v ≠ 0) (x : RankState) : x.decide v.val = .ranked v := by
  have positive : ¬ v.val = 0 := fun zero => nonzero (Fin.ext zero)
  rw [RankState.decide, if_neg (Nat.ne_of_lt v.isLt), dif_pos v.isLt, if_neg positive]

/-- R143: the end of a well-formed burst, with the run that it continues or begins. -/
theorem endBurst_wellFormed {b : FrontBurst} (formed : b.malformed = false) (u : RankUnit) (now : Ms) :
    let v := u.endBurst b now
    v.silenceAt = some (now + 500) ∧ v.runValue = some b.count ∧
      (u.runValue ≠ some b.count → v.runLength = 1 ∧ v.state = u.state) ∧
      (u.runValue = some b.count → v.runLength = min 3 (u.runLength + 1) ∧
        (u.runLength < 2 ∨ u.runLength = 3 → v.state = u.state) ∧
        (u.runLength = 2 → v.state = u.state.decide b.count)) := by
  have ends : u.endBurst b now = u.wellFormed b.count now := by
    rw [RankUnit.endBurst, formed]
    rfl
  have state (same : u.runValue = some b.count) : (u.wellFormed b.count now).state =
      if min 3 (u.runLength + 1) = 3 ∧ ¬ u.runLength = 3 then u.state.decide b.count else u.state := by
    simp [RankUnit.wellFormed, same, satInc]
  dsimp only
  rw [ends]
  refine ⟨rfl, rfl, fun other => by simp [RankUnit.wellFormed, other], fun same => ⟨?_, fun settled => ?_, fun third => ?_⟩⟩
  · simp [RankUnit.wellFormed, same, satInc]
  · rw [state same, if_neg (by omega)]
  · rw [state same, if_pos (by omega)]

/-- R143, R145: a burst that has ended. -/
theorem burstEnd_eq {s : State} {b : FrontBurst} (unit : s.isHead = false) (low : s.pins.front = false)
    (opened : s.rank.openBurst = some b) (past : b.lowFrom + 40 ≤ s.ticks) :
    exec .burstEnd s = .next (announce s (s.setRank (s.rank.endBurst b s.now))) := by
  simp [exec, execBurstEnd, State.endedBurst, unit, low, opened, Option.filter, past]

/-- R145, R153: a new rank unit reaches the rank and the roster, whose unplaced list stays. -/
theorem setRank_frame (s : State) (u : RankUnit) :
    s.setRank u = { s with rank := u, roster := (s.setRank u).roster } ∧
      (s.setRank u).roster.unplaced = s.roster.unplaced := by
  rcases setRank_cases s u with e | ⟨_, _, e⟩ <;> rw [e] <;> exact ⟨rfl, rfl⟩

/-- R153: a rank entered leaves its slot empty. -/
theorem setRank_closes {s : State} {u : RankUnit} {r : Rank} (ranked : u.state = .ranked r)
    (entered : s.rank.state ≠ .ranked r) : (s.setRank u).roster.slots[r] = none := by
  have differs : ¬ u.state = s.rank.state := fun same => entered (same.symm.trans ranked)
  rw [State.setRank, if_neg differs, State.closeOwnSlot]
  dsimp only
  rw [ranked]
  exact put_same _ _ _

/-- R144: the silence deadline reached leaves the roster as it stands. -/
theorem setRank_silent (s : State) : s.setRank s.rank.silent = { s with rank := s.rank.silent } := by
  rcases setRank_cases s s.rank.silent with e | ⟨r, ranked, _⟩
  · exact e
  · cases ranked

/-- Settles O51: a stretch by its length, the end of a burst by the run it makes, and the silence deadline. -/
theorem frontDecidesRank : Obligations.FrontDecidesRank := by
  refine fun us s => ⟨fun head => ?_, fun unit => ?_, fun b unit low opened past => ?_, fun at_ unit timer past => ?_⟩
  · simp [exec, execFrontHighStretch, head]
  · have row : exec (.frontHighStretch us) s = .next { s with rank := { s.rank with
        openBurst := frontStretch s.rank.openBurst us s.ticks } } := by
      simp [exec, execFrontHighStretch, unit]
    refine ⟨_, row, rfl, fun short => ?_, fun lo hi free => ?_,
      fun b lo hi opened => ?_, fun long free => ?_, fun b long opened => ?_⟩
    · exact frontStretch_short short _ _
    · exact (frontStretch_pulse lo hi _ _).trans (by rw [free])
    · exact (frontStretch_pulse lo hi _ _).trans (by rw [opened]; rfl)
    · exact (frontStretch_long long _ _).trans (by rw [free])
    · exact (frontStretch_long long _ _).trans (by rw [opened])
  · obtain ⟨frame, unplaced⟩ := setRank_frame s (s.rank.endBurst b s.now)
    have told := announce_frame s (s.setRank (s.rank.endBurst b s.now))
    have rank : (announce s (s.setRank (s.rank.endBurst b s.now))).rank = s.rank.endBurst b s.now := by
      rw [told, frame]
    refine ⟨_, burstEnd_eq unit low opened past, ?_, ?_, ?_, fun malformed => ?_, fun formed => ?_⟩
    · rw [told, frame]
    · rw [rank]
      unfold RankUnit.endBurst
      split <;> rfl
    · rw [told]
      exact unplaced
    · rw [rank, RankUnit.endBurst, if_pos malformed, RankUnit.malformed]
    · obtain ⟨silence, value, breaks, goesOn⟩ := endBurst_wellFormed formed s.rank s.now
      rw [rank]
      refine ⟨silence, value, breaks, fun same settled => ?_, fun same second => ?_⟩
      · obtain ⟨length, stays, _⟩ := goesOn same
        exact ⟨stays settled, length⟩
      · obtain ⟨length, _, decides⟩ := goesOn same
        refine ⟨by rw [length, second]; rfl, fun v nonzero count => ?_, fun eight => ?_⟩
        · have state : (s.rank.endBurst b s.now).state = .ranked v := by
            rw [decides second, count, decide_ranked nonzero]
          refine ⟨state, fun entered => ?_⟩
          rw [told]
          exact setRank_closes state entered
        · rw [decides second, eight]
          rfl
  · have row : exec .rankSilenceDeadline s = .next (announce s { s with rank := s.rank.silent }) := by
      rw [← setRank_silent]
      simp [exec, execRankSilenceDeadline, State.silenceDue, unit, reached_some timer past]
    have unranked : ({ s with rank := s.rank.silent } : State).activeCauses.unranked = true := by
      show (!s.isHead && !RankState.isRanked (.unranked .frontSilent)) = true
      rw [unit]
      rfl
    refine ⟨_, row, ?_, ?_⟩
    · rw [announce_frame]
      rfl
    · rw [announce_frame]
      exact unranked

end Sys2Proof.Machine
end

section
/-! SUPPORT. A STATUS placed (R147, R150, R151): its destination, and what it leaves of the roster. -/

namespace Sys2Proof.Machine

/-! ## The destination -/

/-- R150: a slot is taken from a claimant when it is closed or holds another serial. -/
def State.slotTaken (s : State) (n : Serial) (r : Rank) : Prop :=
  s.rank.state = .ranked r ∨ ∃ e, s.roster.slots[r] = some e ∧ e.serial ≠ n

theorem slotClosed_iff (s : State) (r : Rank) : s.slotClosed r = true ↔ s.rank.state = .ranked r := by
  simp [State.slotClosed]

/-- R150: an open slot that is empty or the claimant's own is the destination. -/
theorem destination_open {s : State} {h : RxHeader} {r : Rank} (other : h.serial ≠ s.cfg.serial)
    (claim : claimOf h = some r) (free : ¬ s.slotTaken h.serial r) : s.destination h = .slot r := by
  have opened : ¬ s.slotClosed r = true := fun closed => free (.inl ((slotClosed_iff s r).1 closed))
  rw [State.destination, if_neg other, claim]
  dsimp only
  rw [if_neg opened]
  cases found : s.roster.slots[r] with
  | none => rfl
  | some e => exact if_pos (by_contra fun same => free (.inr ⟨e, found, same⟩))

/-- R150: the station's own serial, an unranked claim and a claim to a taken slot go to the unplaced list; the first and
the last in clash. -/
theorem destination_list {s : State} {h : RxHeader}
    (away : h.serial = s.cfg.serial ∨ claimOf h = none ∨ ∃ r, claimOf h = some r ∧ s.slotTaken h.serial r) :
    s.destination h = .unplaced (if h.serial = s.cfg.serial ∨ claimOf h ≠ none then true else false) := by
  by_cases own : h.serial = s.cfg.serial
  · rw [State.destination, if_pos own, if_pos (.inl own)]
  · rw [State.destination, if_neg own]
    rcases away with same | unranked | ⟨r, claim, taken⟩
    · exact absurd same own
    · rw [unranked]
      rw [if_neg fun h => h.elim own fun claims => claims rfl]
    · have claims : h.serial = s.cfg.serial ∨ claimOf h ≠ none := .inr (claim ▸ Option.some_ne_none r)
      rw [if_pos claims, claim]
      dsimp only
      rcases taken with closed | ⟨e, found, differs⟩
      · rw [if_pos ((slotClosed_iff s r).2 closed)]
      · split
        · rfl
        · rw [found]
          exact if_neg differs

/-! ## The roster after a STATUS -/

/-- R150: the slots without a serial. -/
theorem slotsWithout_get (x : Roster) (n : Serial) (i : Rank) :
    (x.slotsWithout n)[i] = x.slots[i].filter fun e => e.serial != n := by
  refine (eight_get _ i).trans ?_
  cases x.slots[i] with
  | none => rfl
  | some e => by_cases own : e.serial = n <;> simp [own, Option.filter]

/-- R156: a STATUS taken into a slot is always taken. -/
theorem intoSlot_taken (x : Roster) (r : Rank) (e : RosterEntry) : (x.intoSlot r e).2 ≠ .notTaken := by
  unfold Roster.intoSlot
  dsimp only
  cases x.slotOf e.serial with
  | some q => dsimp only; split <;> exact nofun
  | none => dsimp only; split <;> exact nofun

theorem place_slot {s : State} {h : RxHeader} {r : Rank} (dest : s.destination h = .slot r) (rep : Report) :
    s.place h rep = s.roster.intoSlot r (s.entryFrom h rep false) := by
  rw [State.place, dest]

theorem place_list {s : State} {h : RxHeader} {clash : Bool} (dest : s.destination h = .unplaced clash) (rep : Report) :
    s.place h rep = s.roster.intoList (s.entryFrom h rep clash) := by
  rw [State.place, dest]

/-- R151: a STATUS that is taken sets no flag; one that is not sets ROSTER FULL alone. -/
theorem rosterStatus_taken {s : State} {h : RxHeader} {rep : Report} (taken : (s.place h rep).2 ≠ .notTaken) :
    s.rosterStatus h rep = { s with roster := (s.place h rep).1 } := by
  rw [State.rosterStatus, if_neg taken]

theorem rosterStatus_notTaken {s : State} {h : RxHeader} {rep : Report} (refused : (s.place h rep).2 = .notTaken) :
    s.rosterStatus h rep = { s with flags := { s.flags with rosterFull := true } } := by
  rw [State.rosterStatus, if_pos refused, place_notTaken refused]

/-- R150: the unplaced list holds a serial. -/
theorem lists_eq_true {x : Roster} {n : Serial} (h : ∃ e ∈ x.unplaced, e.serial = n) : x.lists n = true := by
  simpa [Roster.lists] using h

theorem lists_eq_false {x : Roster} {n : Serial} (h : ¬ ∃ e ∈ x.unplaced, e.serial = n) : x.lists n = false := by
  simpa [Roster.lists] using h

theorem intoList_listed {x : Roster} {e : RosterEntry} (listed : x.lists e.serial = true) :
    x.intoList e = ({ x with unplaced := x.unplaced.map fun o => if o.serial = e.serial then e else o }, .refreshed) :=
  if_pos listed

theorem intoList_joins {x : Roster} {e : RosterEntry} (fresh : x.lists e.serial = false) (room : x.unplaced.length < 4) :
    (x.intoList e).1 = ⟨x.slotsWithout e.serial, x.unplaced ++ [e]⟩ ∧ (x.intoList e).2 ≠ .notTaken := by
  rcases intoList_cases x e with ⟨listed, _⟩ | ⟨_, _, joined, taken⟩ | ⟨_, full, _⟩
  · exact absurd (fresh.symm.trans listed) (by decide)
  · exact ⟨joined, taken⟩
  · exact absurd room (Nat.not_lt.2 full)

theorem intoList_full {x : Roster} {e : RosterEntry} (fresh : x.lists e.serial = false) (full : 4 ≤ x.unplaced.length) :
    x.intoList e = (x, .notTaken) := by
  rcases intoList_cases x e with ⟨listed, _⟩ | ⟨_, room, _⟩ | ⟨_, _, same⟩
  · exact absurd (fresh.symm.trans listed) (by decide)
  · exact absurd room (Nat.not_lt.2 full)
  · exact same

/-- R123: a delivered STATUS in range is taken by the station. -/
theorem statusTelegram_eq {h : RxHeader} {p : BitVec 288} {rep : Report} {s : State}
    (delivers : s.link.receiver.delivers = true) (decoded : Report.decode p = some rep) :
    exec (.statusTelegram h p) s = .next (s.heard.takeStatus h rep) := by
  simp [exec, execStatusTelegram, State.arrive, delivers, decoded, State.heard]

/-- Settles O43: the destination decides (`destination_open`, `destination_list`), and the list then refreshes, joins or
refuses. -/
theorem statusPlacement : Obligations.StatusPlacement := by
  intro h p rep s unit delivers decoded
  have unitHeard : s.heard.isHead = false := unit
  refine ⟨s.heard.rosterStatus h rep, ?_, rfl, fun r other claim free => ?_, fun away listed => ?_,
    fun away fresh room => ?_, fun away fresh full => ?_⟩
  · rw [statusTelegram_eq delivers decoded, takeStatus_unit h rep unitHeard]
  · have placed := place_slot (destination_open (s := s.heard) other claim free) rep
    have taken : (s.heard.place h rep).2 ≠ .notTaken := by rw [placed]; exact intoSlot_taken _ _ _
    obtain ⟨own, list, _⟩ := intoSlot_spec s.roster r (s.heard.entryFrom h rep false)
    rw [rosterStatus_taken taken, placed]
    refine ⟨own, rfl, list, fun x elsewhere => ?_⟩
    exact (put_other _ _ elsewhere).trans (slotsWithout_get _ _ _)
  · have placed := place_list (destination_list (s := s.heard) away) rep
    rw [intoList_listed (lists_eq_true listed)] at placed
    have taken : (s.heard.place h rep).2 ≠ .notTaken := by rw [placed]; exact nofun
    rw [rosterStatus_taken taken, placed]
    exact ⟨rfl, rfl, rfl⟩
  · have placed := place_list (destination_list (s := s.heard) away) rep
    obtain ⟨joined, taken⟩ := intoList_joins (x := s.heard.roster)
      (e := s.heard.entryFrom h rep _) (lists_eq_false fresh) room
    rw [← placed] at joined taken
    rw [rosterStatus_taken taken, joined]
    exact ⟨rfl, rfl, fun x => slotsWithout_get _ _ _⟩
  · have placed := place_list (destination_list (s := s.heard) away) rep
    rw [intoList_full (x := s.heard.roster) (e := s.heard.entryFrom h rep _) (lists_eq_false fresh) full] at placed
    have refused : (s.heard.place h rep).2 = .notTaken := by rw [placed]
    rw [rosterStatus_notTaken refused]
    exact ⟨rfl, rfl⟩

end Sys2Proof.Machine
end

section
/-! SUPPORT. A head clash on the head (R155, R185, R195): its beginning, its end, and both in one millisecond. -/

namespace Sys2Proof.Machine

/-! ## The pieces of the rows -/

/-- R155: a clashing COMMAND on the head, which is in no clash, and in one already. -/
theorem takeCommand_begins {s : State} (head : s.isHead = true) (calm : s.headClashAt = none) (h : RxHeader)
    (m : CommandContent) : s.takeCommand h m = (coastEdge s s.clashCommand).headClashInput true := by
  simp [State.takeCommand, head, calm]

/-- R59: coasting does not change while the clash goes on, so no event is raised. -/
theorem takeCommand_goesOn {s : State} (head : s.isHead = true) (clash : s.headClashAt.isSome = true) (h : RxHeader)
    (m : CommandContent) : s.takeCommand h m = s.clashCommand := by
  have causes : s.activeCauses = s.clashCommand.activeCauses := by
    unfold State.activeCauses
    rw [clash]
    rfl
  have still : coastEdge s s.clashCommand = s.clashCommand := by
    have same : s.coasting = s.clashCommand.coasting := coasting_congr causes rfl
    rcases coastEdge_cases s s.clashCommand with ⟨_, e⟩ | ⟨runs, coasts, _⟩ | ⟨coasts, runs, _⟩
    · exact e
    · cases runs.symm.trans (same.trans coasts)
    · cases runs.symm.trans (same.symm.trans coasts)
  unfold State.takeCommand
  dsimp only
  rw [if_pos head, if_neg (by simpa [Option.isSome_iff_ne_none] using clash), still]

/-- R123, R155: what a COMMAND can reach on the head, and the clash deadline that it sets. -/
theorem takeCommand_head {s : State} (head : s.isHead = true) (h : RxHeader) (m : CommandContent) :
    let t := s.takeCommand h m
    t = { s with headClashAt := some (s.now + 1500), tell := t.tell, faults := t.faults, warn := t.warn
                 events := t.events, flags := t.flags } := by
  dsimp only
  cases clash : s.headClashAt with
  | none =>
    have frame := headClashInput_listOnly (coastEdge s s.clashCommand) true
    unfold ListOnly at frame
    rw [takeCommand_begins head clash, frame, coastEdge_frame]
    rfl
  | some deadline =>
    rw [takeCommand_goesOn head (by rw [clash]; rfl)]
    rfl

/-- R155: a head's clash deadline reached, before the change is noted. -/
def State.headClashEnded (s : State) : State := (coastEdge s s.clashEnded).headClashInput false

theorem headClashDeadline_head {s : State} {at_ : Ms} (head : s.isHead = true) (timer : s.headClashAt = some at_)
    (past : at_ ≤ s.now) : exec .headClashDeadline s = .next (announce s s.headClashEnded) := by
  simp only [exec, execHeadClashDeadline, reached_some timer past, if_true, head]
  rfl

theorem headClashEnded_frame (s : State) :
    let t := s.headClashEnded
    t = { s.clashEnded with faults := t.faults, warn := t.warn, events := t.events, flags := t.flags } := by
  have frame := headClashInput_listOnly (coastEdge s s.clashEnded) false
  unfold ListOnly at frame
  dsimp only
  unfold State.headClashEnded
  rw [frame, coastEdge_frame]

/-! ## The entry HEAD CLASH and WARN -/

/-- R195: an unacknowledged CRITICAL entry that stands makes WARN blink, once the list is settled. -/
theorem settleList_blinks {s : State} {k : Key} {e : Entry} (found : s.settleList.faults.entryOf k = some e)
    (critical : e.severity = .critical) (unacked : e.acked = false) (active : e.state = .active) :
    s.settleList.warn.state = .blink := by
  have listed : (s.settleList.faults.entries.any
      fun e => e.severity == .critical && !e.acked && e.state.stands) = true := by
    rw [List.any_eq_true]
    exact ⟨e, (entryOf_mem found).1, by simp [critical, unacked, active, EntryState.stands]⟩
  have law : s.settleList.warn.state = s.settleList.faults.warnState := eq_of_beq (settleList_warnLaw s)
  rw [law, FaultList.warnState, if_pos listed]

/-- R178, R181, R185: a head clash that begins, where HEAD CLASH has no entry and the list has room. -/
theorem headClashInput_begins {s : State} (fresh : s.faults.entryOf (stationKey s.cfg.serial .headClash) = none)
    (room : s.faults.entries.length < 32) :
    (s.headClashInput true).warn.state = .blink ∧
      ((s.headClashInput true).faults.entryOf (stationKey s.cfg.serial .headClash)).map
        (fun e => (e.severity, e.state, e.acked, e.occurrences, e.rankConf)) =
          some (.critical, .active, false, 1, some 0) := by
  have made : (s.headClashInput true).faults.entryOf (stationKey s.cfg.serial .headClash) = _ :=
    (settleList_entryOf _ _).trans (congrArg _ (confirm_entryOf_new fresh room .empty none))
  refine ⟨settleList_blinks made rfl rfl rfl, ?_⟩
  rw [made]
  simp [State.newEntry, State.ranksFor, stationKey, severityOf]

/-- R182, R185: a head clash that ends leaves HEAD CLASH CLEARED or gone. -/
theorem headClashInput_ends (s : State) :
    ((s.headClashInput false).faults.entryOf (stationKey s.cfg.serial .headClash)).all
      (fun e => e.state == .cleared) = true := by
  show ((s.clear _).settleList.faults.entryOf _).all _ = true
  rw [settleList_entryOf, Option.all_map]
  exact clear_entryOf s _

/-! ## The telling -/

/-- R127: what is told makes no station silent, and ends no silence. -/
theorem queueStatus_isSilent (s : State) : s.queueStatus.isSilent = s.isSilent := by
  rcases queueStatus_cases s with ⟨_, e⟩ | ⟨speaks, e⟩ <;> rw [e]
  · rfl
  · have heard := speaks
    rw [← Bool.not_eq_true, isSilent_iff, not_or] at heard
    rw [speaks, ← Bool.not_eq_true, isSilent_iff, not_or]
    exact ⟨heard.1, queued_ne_latchedOff heard.2 .status⟩

theorem announce_isSilent (b s : State) : (announce b s).isSilent = s.isSilent := by
  rcases announce_cases b s with ⟨_, e⟩ | ⟨_, e⟩ <;> rw [e]
  rcases noteChange_cases s with ⟨_, e⟩ | ⟨_, _, e⟩ <;> rw [e]
  · exact queueStatus_isSilent s
  · rfl

/-- R155: telling keeps the moment of the last clash's end, and the receiver. -/
theorem announce_keepsEar (b s : State) :
    (announce b s).tell.clashEnd = s.tell.clashEnd ∧ (announce b s).link.receiver = s.link.receiver := by
  rcases announce_cases b s with ⟨_, e⟩ | ⟨_, e⟩ <;> rw [e]
  · exact ⟨rfl, rfl⟩
  rcases noteChange_cases s with ⟨_, e⟩ | ⟨_, _, e⟩ <;> rw [e]
  · rcases queueStatus_cases s with ⟨_, e⟩ | ⟨_, e⟩ <;> rw [e] <;> exact ⟨rfl, rfl⟩
  · exact ⟨rfl, rfl⟩

/-- R136, R155: a clash that begins or ends is told. -/
theorem news_of_clash {s t : State} (h : t.headClashAt.isSome ≠ s.headClashAt.isSome) : t.news ≠ s.news :=
  fun same => h (congrArg (fun n => n.causes.headClash) same)

theorem heard_teller (s : State) : s.heard.teller = s.teller := good_link_teller s

theorem heard_isSilent (s : State) : s.heard.isSilent = s.isSilent := by
  rw [State.isSilent, heard_tx]
  rfl

/-- R136, R155: the end of a head clash after the holdoff has run out queues a STATUS at once. -/
theorem headClashEnded_told {s : State} (clash : s.headClashAt.isSome = true) (past : s.tell.holdoffAt ≤ s.now) :
    StatusQueued s.now (announce s s.headClashEnded) := by
  have untold : Untold s.teller s.headClashEnded.teller := by
    have ended := (clashEnded_untold s).coastEdge s
    rwa [← (headClashInput_listOnly (coastEdge s s.clashEnded) false).teller] at ended
  have changed : s.headClashEnded.news ≠ s.news := news_of_clash <| by
    rw [headClashEnded_frame, clash]
    exact Bool.false_ne_true
  rcases announce_untold untold changed with ⟨_, queued⟩ | ⟨⟨later, _, _⟩, _⟩
  · exact queued
  · exact absurd past (Nat.not_le.2 later)

/-- R155, log entry 19: a head clash that begins where the last one ended this very millisecond, with its change told, is
folded with it into one STATUS. -/
theorem headClashBegins_folded {s : State} (head : s.isHead = true) (calm : s.headClashAt = none)
    (ended : s.tell.clashEnd = some s.now) (idle : s.tell.waiting = false) (h : RxHeader) (m : CommandContent) :
    StatusQueued s.now (announce s (s.heard.takeCommand h m)) := by
  have untold := takeCommand_untold h s.heard m
  rw [heard_teller] at untold
  have clash : (s.heard.takeCommand h m).headClashAt = some (s.now + 1500) :=
    congrArg State.headClashAt (takeCommand_head (s := s.heard) head h m)
  have changed : (s.heard.takeCommand h m).news ≠ s.news := news_of_clash <| by
    rw [clash, calm]
    exact nofun
  have folds : s.teller.folds (s.heard.takeCommand h m).teller :=
    ⟨calm, fun none_ => Option.some_ne_none _ (clash.symm.trans none_), ended, idle⟩
  rcases announce_untold untold changed with ⟨_, queued⟩ | ⟨⟨_, _, apart⟩, _⟩
  · exact queued
  · exact absurd folds apart

/-! ## The rows -/

/-- Settles O38: a clash that begins, one that goes on (`takeCommand_goesOn`), one that ends, and the fold of an end and a
beginning (`headClashBegins_folded`). -/
theorem headClashOnHead : Obligations.HeadClashOnHead := by
  refine fun s head => ⟨fun h p m delivers decoded => ?_, fun at_ timer past => ?_⟩
  · have headHeard : s.heard.isHead = true := head
    have told := announce_frame s (s.heard.takeCommand h m)
    have frame := takeCommand_head headHeard h m
    refine ⟨_, commandTelegram_eq delivers decoded, ?_, ?_, ?_, ?_, ?_, fun clash => ?_, fun calm fresh room => ?_⟩
    · rw [told, frame]
      rfl
    · rw [told, frame]
      rfl
    · rw [told, frame]
      rfl
    · rw [told, frame]
      rfl
    · rw [told, frame]
      rfl
    · rw [told, takeCommand_goesOn headHeard clash]
      exact ⟨rfl, rfl, rfl⟩
    · have before := coastEdge_frame s.heard s.heard.clashCommand
      have begins := headClashInput_begins (s := coastEdge s.heard s.heard.clashCommand)
        (by rw [before]; exact fresh) (by rw [before]; exact room)
      have serial : (coastEdge s.heard s.heard.clashCommand).cfg.serial = s.cfg.serial := by
        rw [before]
        rfl
      rw [serial] at begins
      rw [told, takeCommand_begins headHeard calm]
      exact begins
  · have told := announce_frame s s.headClashEnded
    have frame := headClashEnded_frame s
    refine ⟨_, headClashDeadline_head head timer past, ?_, ?_, ?_, ?_, fun h p m speaks due delivers decoded => ?_⟩
    · rw [told, frame]
      rfl
    · rw [told, frame]
      rfl
    · rw [told, frame]
      rfl
    · have before := coastEdge_frame s s.clashEnded
      have ends := headClashInput_ends (coastEdge s s.clashEnded)
      have serial : (coastEdge s s.clashEnded).cfg.serial = s.cfg.serial := by
        rw [before]
        rfl
      rw [serial] at ends
      rw [told]
      exact ends
    · obtain ⟨_, holdoff, idle, queued⟩ := headClashEnded_told (by rw [timer]; rfl) due
      obtain ⟨ended, ear⟩ := announce_keepsEar s s.headClashEnded
      have tell : s.headClashEnded.tell.clashEnd = some s.now := by
        rw [frame]
        rfl
      have link : s.headClashEnded.link = s.link := by
        rw [frame]
        rfl
      rw [tell] at ended
      rw [link] at ear
      have speech : (announce s s.headClashEnded).isSilent = false := by
        rw [announce_isSilent, frame]
        exact speaks
      have now : (announce s s.headClashEnded).now = s.now := by rw [told, frame]; rfl
      have calm : (announce s s.headClashEnded).headClashAt = none := by rw [told, frame]; rfl
      have still : (announce s s.headClashEnded).isHead = true := by rw [told, frame]; exact head
      refine ⟨holdoff, queued speech, ?_⟩
      generalize announce s s.headClashEnded = u at *
      have one := headClashBegins_folded still calm (by rw [now]; exact ended) idle h m
      obtain ⟨_, holdoffAgain, idleAgain, queuedAgain⟩ := one
      have clashFrame := takeCommand_head (s := u.heard) still h m
      refine ⟨_, commandTelegram_eq (by rw [ear]; exact delivers) decoded, ?_, idleAgain, ?_, queuedAgain ?_⟩
      · rw [announce_frame, clashFrame]
        rfl
      · rw [holdoffAgain, now]
      · rw [announce_isSilent, clashFrame]
        exact (heard_isSilent u).trans speech

end Sys2Proof.Machine
end

section
/-! SUPPORT. One entry of the fault list under a confirmation, a clear and a change of ranks (R179, R181 to R183, R193,
R194), and the events that follow one another (R200). -/

namespace Sys2Proof.Machine

/-! ## The entry of a key -/

/-- R177: in a list that keeps its law an entry is the entry of its key. -/
theorem entryOf_of_mem {s : State} (law : s.listLaw = true) {e : Entry} (listed : e ∈ s.faults.entries) :
    s.faults.entryOf e.key = some e := by
  obtain ⟨-, keys, -⟩ := (listLaw_iff s).1 law
  cases found : s.faults.entryOf e.key with
  | none => simpa using List.find?_eq_none.1 found e listed
  | some x =>
    obtain ⟨stands, key⟩ := entryOf_mem found
    exact congrArg some (List.inj_on_of_nodup_map keys stands listed key)

theorem raise_entryOf (s : State) (b : EventBody) (k : Key) : (s.raise b).faults.entryOf k = s.faults.entryOf k := by
  rw [raise_faults]

/-- R179: the entries of a serial take a current rank. -/
theorem setRanks_entryOf (s : State) (n : Serial) (r : Option Rank) (k : Key) :
    (s.setRanks n r).faults.entryOf k =
      if k.serial = n then (s.faults.entryOf k).map fun e => { e with rankCur := r } else s.faults.entryOf k := by
  have keys (e : Entry) : (if e.key.serial = n then { e with rankCur := r } else e).key = e.key := by split <;> rfl
  refine (mapEntries_entryOf s keys k).trans ?_
  cases found : s.faults.entryOf k with
  | none => simp
  | some e =>
    obtain ⟨-, key⟩ := entryOf_mem found
    by_cases own : k.serial = n <;> simp [key, own]

theorem setRanks_listLaw {s : State} (law : s.listLaw = true) (n : Serial) (r : Option Rank) :
    (s.setRanks n r).listLaw = true :=
  mapEntries_listLaw law (fun e => by split <;> rfl) fun e a b => by split <;> exact ⟨a, b⟩

/-! ## Confirmations -/

/-- R181: a confirmation of a key whose entry stands gives it new details, and makes an ORPHANED one ACTIVE. -/
theorem confirm_entryOf_standing {s : State} {k : Key} {e : Entry} (found : s.faults.entryOf k = some e)
    (stands : e.state ≠ .cleared) (d : Details) (claim : Option Rank) :
    (s.confirm k d claim).faults.entryOf k = some { e with state := .active, details := d } := by
  rcases confirm_cases s k d claim with ⟨fresh, _⟩ | ⟨x, same, active, eq⟩ | ⟨x, same, _, eq⟩ | ⟨x, same, cleared, _⟩
  · cases fresh.symm.trans found
  · cases same.symm.trans found
    rw [eq, mapEntry_entryOf _ _ (g := fun e => { e with details := d }) (fun _ => rfl), if_pos rfl, found, ← active]
    rfl
  · rw [eq, mapEntry_entryOf _ _ (g := fun e => { e with state := .active, details := d }) (fun _ => rfl), if_pos rfl,
      found]
    rfl
  · cases same.symm.trans found
    exact absurd cleared stands

/-- R181: a confirmation of a key whose entry is CLEARED reactivates it. -/
theorem confirm_entryOf_cleared {s : State} {k : Key} {e : Entry} (found : s.faults.entryOf k = some e)
    (cleared : e.state = .cleared) (d : Details) (claim : Option Rank) :
    (s.confirm k d claim).faults.entryOf k = some (e.reactivate d (s.ranksFor k claim)) := by
  rcases confirm_cases s k d claim with ⟨fresh, _⟩ | ⟨x, same, active, _⟩ | ⟨x, same, orphaned, _⟩ | ⟨x, same, _, eq⟩
  · cases fresh.symm.trans found
  · cases same.symm.trans found
    cases active.symm.trans cleared
  · cases same.symm.trans found
    cases orphaned.symm.trans cleared
  · rw [eq, raise_entryOf,
      mapEntry_entryOf _ _ (g := fun e => e.reactivate d (s.ranksFor k claim)) (fun _ => rfl), if_pos rfl, found]
    rfl

/-- R183: an append leaves the entries of other keys. -/
theorem append_entryOf_other (s : State) (es : List Entry) {e : Entry} {k : Key} (other : k ≠ e.key) :
    (s.append es e).faults.entryOf k = es.find? (·.key == k) := by
  rw [append_faults]
  show List.find? _ (es ++ [e]) = _
  simp [List.find?_append, Ne.symm other]

/-- R181, R183: a confirmation of a key that has an entry, or that finds room, leaves the entries of other keys. -/
theorem confirm_entryOf_other {s : State} {j k : Key} (other : k ≠ j) (room : s.faults.entries.length < 32)
    (d : Details) (claim : Option Rank) : (s.confirm j d claim).faults.entryOf k = s.faults.entryOf k := by
  have spared (g : Entry → Entry) (keys : ∀ e, (g e).key = e.key) :
      (s.mapEntry j g).faults.entryOf k = s.faults.entryOf k := (mapEntry_entryOf s j keys k).trans (if_neg other)
  rcases confirm_cases s j d claim with ⟨_, eq⟩ | ⟨_, _, _, eq⟩ | ⟨_, _, _, eq⟩ | ⟨_, _, _, eq⟩ <;> rw [eq]
  · rw [State.makeEntry, if_pos room]
    exact append_entryOf_other _ _ (e := s.newEntry j d claim) other
  · exact spared _ fun _ => rfl
  · exact spared _ fun _ => rfl
  · rw [raise_entryOf]
    exact spared _ fun _ => rfl

theorem find?_eraseP {α : Type} {p q : α → Bool} {l : List α} {a : α} (found : l.find? p = some a)
    (kept : q a = false) :
    (l.eraseP q).find? p = some a := by
  induction l with
  | nil => cases found
  | cons x l ih =>
    rw [List.eraseP_cons]
    cases hp : p x with
    | true =>
      have own : x = a := by simpa [List.find?, hp] using found
      subst own
      simp [kept, hp]
    | false =>
      have rest : l.find? p = some a := by simpa [List.find?, hp] using found
      cases q x with
      | true => exact rest
      | false => simpa [List.find?, hp] using ih rest

/-- R183: what stands is never evicted. -/
theorem confirm_entryOf_stands {s : State} {j k : Key} (other : k ≠ j) {e : Entry}
    (found : s.faults.entryOf k = some e) (stands : e.state ≠ .cleared) (d : Details) (claim : Option Rank) :
    (s.confirm j d claim).faults.entryOf k = some e := by
  by_cases room : s.faults.entries.length < 32
  · rw [confirm_entryOf_other other room, found]
  · rcases confirm_cases s j d claim with ⟨_, eq⟩ | ⟨_, _, _, eq⟩ | ⟨_, _, _, eq⟩ | ⟨_, _, _, eq⟩ <;> rw [eq]
    · rcases makeEntry_cases s (s.newEntry j d claim) with ⟨fits, _⟩ | ⟨_, _, eq⟩ | ⟨_, _, eq⟩
      · exact absurd fits room
      · rw [eq, append_entryOf_other _ _ other]
        exact find?_eraseP found (by simpa using stands)
      · rw [eq]
        exact found
    · exact (mapEntry_entryOf s j (g := fun e => { e with details := d }) (fun _ => rfl) k).trans
        ((if_neg other).trans found)
    · exact (mapEntry_entryOf s j (g := fun e => { e with state := .active, details := d }) (fun _ => rfl) k).trans
        ((if_neg other).trans found)
    · rw [raise_entryOf]
      exact (mapEntry_entryOf s j (g := fun e => e.reactivate d (s.ranksFor j claim)) (fun _ => rfl) k).trans
        ((if_neg other).trans found)

/-- R181, R183: the entries of other keys after a confirmation stood before it. -/
theorem confirm_mem_other {s : State} {j : Key} {d : Details} {claim : Option Rank} {e : Entry}
    (listed : e ∈ (s.confirm j d claim).faults.entries) (other : e.key ≠ j) : e ∈ s.faults.entries := by
  have stood {g : Entry → Entry} (listed : e ∈ (s.mapEntry j g).faults.entries) (keys : ∀ e, (g e).key = e.key) :
      e ∈ s.faults.entries := by
    obtain ⟨x, hx, rfl⟩ := List.mem_map.1 listed
    by_cases own : x.key = j
    · rw [if_pos own] at other
      exact absurd ((keys x).trans own) other
    · rwa [if_neg own]
  have appended {es : List Entry} (listed : e ∈ (s.append es (s.newEntry j d claim)).faults.entries) : e ∈ es := by
    rw [append_faults] at listed
    rcases List.mem_append.1 listed with old | new
    · exact old
    · rw [List.mem_singleton.1 new] at other
      exact absurd rfl other
  rcases confirm_cases s j d claim with ⟨_, eq⟩ | ⟨_, _, _, eq⟩ | ⟨_, _, _, eq⟩ | ⟨_, _, _, eq⟩ <;> rw [eq] at listed
  · rcases makeEntry_cases s (s.newEntry j d claim) with ⟨_, eq⟩ | ⟨_, _, eq⟩ | ⟨_, _, eq⟩ <;> rw [eq] at listed
    · exact appended listed
    · exact List.mem_of_mem_eraseP (appended listed)
    · exact listed
  · exact stood listed fun _ => rfl
  · exact stood listed fun _ => rfl
  · rw [raise_faults] at listed
    exact stood listed fun _ => rfl

/-- R183: a confirmation adds at most one entry. -/
theorem confirm_length (s : State) (k : Key) (d : Details) (claim : Option Rank) :
    (s.confirm k d claim).faults.entries.length ≤ s.faults.entries.length + 1 := by
  have mapped (g : Entry → Entry) : (s.mapEntry k g).faults.entries.length = s.faults.entries.length :=
    List.length_map _
  rcases confirm_cases s k d claim with ⟨_, eq⟩ | ⟨_, _, _, eq⟩ | ⟨_, _, _, eq⟩ | ⟨_, _, _, eq⟩ <;> rw [eq]
  · rcases makeEntry_cases s (s.newEntry k d claim) with ⟨_, eq⟩ | ⟨_, _, eq⟩ | ⟨_, _, eq⟩ <;> rw [eq]
    · simp [append_faults]
    · simpa [append_faults] using List.eraseP_sublist.length_le
    · exact Nat.le_succ _
  · exact (mapped _).le.trans (Nat.le_succ _)
  · exact (mapped _).le.trans (Nat.le_succ _)
  · rw [raise_faults]
    exact (mapped _).le.trans (Nat.le_succ _)

/-! ## Clears -/

/-- R182, R194: what a clear leaves of an entry. -/
def Entry.afterClear (e : Entry) : Option Entry :=
  if e.state = .cleared then some e
  else if e.acked = true then none
  else some { e with state := .cleared, extent := 0 }

theorem afterClear_cleared {e : Entry} (cleared : e.state = .cleared) : e.afterClear = some e := if_pos cleared

theorem afterClear_acked {e : Entry} (stands : e.state ≠ .cleared) (acked : e.acked = true) : e.afterClear = none :=
  (if_neg stands).trans (if_pos acked)

theorem afterClear_unacked {e : Entry} (stands : e.state ≠ .cleared) (unacked : e.acked = false) :
    e.afterClear = some { e with state := .cleared, extent := 0 } :=
  (if_neg stands).trans (if_neg (by simp [unacked]))

/-- R182: a second clear changes nothing. -/
theorem afterClear_twice (x : Option Entry) :
    (x.bind Entry.afterClear).bind Entry.afterClear = x.bind Entry.afterClear := by
  cases x with
  | none => rfl
  | some e =>
    by_cases cleared : e.state = .cleared
    · simp [Entry.afterClear, cleared]
    · cases acked : e.acked <;> simp [Entry.afterClear, cleared, acked]

/-- R194: the entry of a swept key leaves the list exactly where it is CLEARED and acknowledged. -/
theorem sweep_entryOf_own {s : State} (law : s.listLaw = true) (k : Key) :
    (s.sweep k).faults.entryOf k = (s.faults.entryOf k).filter fun e => !(e.state == .cleared && e.acked) := by
  have kept : (s.sweep k).listLaw = true := sublist_listLaw law List.filter_sublist rfl
  have swept (x : Entry) : x ∈ (s.sweep k).faults.entries ↔
      x ∈ s.faults.entries ∧ (!(x.key == k && x.state == .cleared && x.acked)) = true := List.mem_filter
  have gone (none_ : ∀ x ∈ (s.sweep k).faults.entries, x.key ≠ k) : (s.sweep k).faults.entryOf k = none :=
    List.find?_eq_none.2 fun x listed => by simpa using none_ x listed
  cases found : s.faults.entryOf k with
  | none => exact gone fun x listed => by simpa using List.find?_eq_none.1 found x ((swept x).1 listed).1
  | some e =>
    obtain ⟨listed, rfl⟩ := entryOf_mem found
    by_cases leaves : (e.state == .cleared && e.acked) = true
    · refine (gone fun x there own => ?_).trans (by simp [Option.filter, leaves])
      obtain ⟨old, stays⟩ := (swept x).1 there
      have same := entryOf_of_mem law old
      rw [own, found] at same
      cases same
      simp [leaves] at stays
    · refine (entryOf_of_mem kept ((swept e).2 ⟨listed, ?_⟩)).trans (by simp [Option.filter, leaves])
      simp [leaves]

/-- R182, R194: a clear of a key in a list that keeps its law. -/
theorem clear_entryOf_own {s : State} (law : s.listLaw = true) (k : Key) :
    (s.clear k).faults.entryOf k = (s.faults.entryOf k).bind Entry.afterClear := by
  rcases clear_cases s k with ⟨idle, eq⟩ | ⟨e, found, stands, eq⟩
  · rw [eq]
    cases found : s.faults.entryOf k with
    | none => rfl
    | some e =>
      rw [found] at idle
      exact (afterClear_cleared (by simpa using idle)).symm
  · have closed : (s.mapEntry k fun e => { e with state := .cleared, extent := 0 }).listLaw = true :=
      mapEntry_listLaw law k (fun _ => rfl) fun _ a b => ⟨a, b⟩
    rw [eq, sweep_entryOf_own (by rw [raise_listLaw]; exact closed), raise_entryOf,
      mapEntry_entryOf _ _ (g := fun e => { e with state := .cleared, extent := 0 }) (fun _ => rfl), if_pos rfl, found]
    cases acked : e.acked with
    | true => simp [afterClear_acked stands acked, Option.filter, acked]
    | false => simp [afterClear_unacked stands acked, Option.filter, acked]

/-! ## Extents -/

/-- R193: only an ACTIVE entry NO SUPPLY has an extent. -/
theorem extentOf_zero (s : State) {e : Entry} (h : e.key.kind ≠ .noSupply ∨ e.key.fn = none ∨ e.state ≠ .active) :
    s.extentOf e = 0 := by
  have noAnchor (f : LampFn) (fn : e.key.fn = some f) : e.anchor f = none := by
    refine if_neg fun ⟨supply, _, active, _⟩ => ?_
    rcases h with other | noFn | idle
    · exact other supply
    · cases fn.symm.trans noFn
    · exact idle active
  unfold State.extentOf
  cases fn : e.key.fn with
  | none => rfl
  | some f =>
    dsimp only
    rw [noAnchor f fn]

/-- R193, R195: an entry with no extent of its own, once the list is settled. -/
theorem settleList_entryOf_zero {s : State} {k : Key} {e : Entry} (found : s.faults.entryOf k = some e)
    (h : e.key.kind ≠ .noSupply ∨ e.key.fn = none ∨ e.state ≠ .active) :
    s.settleList.faults.entryOf k = some { e with extent := 0 } := by
  rw [settleList_entryOf, found, Option.map_some, extentOf_zero s h]

/-! ## Events -/

/-- R200: from s to t events are only added. -/
def EventsAdd (s t : State) : Prop := s.events <+: t.events

theorem EventsAdd.same {s t : State} (h : t.events = s.events) : EventsAdd s t :=
  ⟨[], (List.append_nil _).trans h.symm⟩

theorem EventsAdd.trans {s t u : State} (h : EventsAdd s t) (g : EventsAdd t u) : EventsAdd s u :=
  List.IsPrefix.trans h g

theorem EventsAdd.foldl {α : Type} {f : State → α → State} (h : ∀ s a, EventsAdd s (f s a)) (l : List α) (s : State) :
    EventsAdd s (l.foldl f s) := by
  induction l generalizing s with
  | nil => exact .same rfl
  | cons a l ih => exact (h s a).trans (ih _)

theorem EventsAdd.head? {s t : State} (h : EventsAdd s t) {e : Event} (one : s.events = [e]) :
    t.events.head? = some e := by
  obtain ⟨rest, eq⟩ := h
  rw [← eq, one]
  rfl

theorem raise_adds (s : State) (b : EventBody) : EventsAdd s (s.raise b) := by
  rcases raise_cases s b with ⟨_, e⟩ | ⟨_, _, e⟩ | ⟨_, _, e⟩ <;> rw [e]
  · exact .same rfl
  · exact List.prefix_append _ _
  · exact .same rfl

theorem settleList_adds (s : State) : EventsAdd s s.settleList := .same (settleList_events s)

theorem confirm_adds (s : State) (k : Key) (d : Details) (claim : Option Rank) : EventsAdd s (s.confirm k d claim) := by
  have appended (es : List Entry) (e : Entry) : EventsAdd s (s.append es e) := by
    have raised := raise_adds { s with faults := { s.faults with entries := es ++ [e] } }
      (.faultConfirmed es.length e.key.serial)
    exact raised
  rcases confirm_cases s k d claim with ⟨_, eq⟩ | ⟨_, _, _, eq⟩ | ⟨_, _, _, eq⟩ | ⟨_, _, _, eq⟩ <;> rw [eq]
  · rcases makeEntry_cases s (s.newEntry k d claim) with ⟨_, eq⟩ | ⟨_, _, eq⟩ | ⟨_, _, eq⟩ <;> rw [eq]
    · exact appended _ _
    · exact appended _ _
    · exact .same rfl
  · exact .same rfl
  · exact .same rfl
  · exact raise_adds (s.mapEntry k fun e => e.reactivate d (s.ranksFor k claim)) _

theorem clear_adds (s : State) (k : Key) : EventsAdd s (s.clear k) := by
  rcases clear_cases s k with ⟨_, eq⟩ | ⟨_, _, _, eq⟩ <;> rw [eq]
  · exact .same rfl
  · exact raise_adds (s.mapEntry k fun e => { e with state := .cleared, extent := 0 }) _

/-- R181, R200: a confirmation of a key that stands raises nothing. -/
theorem confirm_events_standing {s : State} {k : Key} {e : Entry} (found : s.faults.entryOf k = some e)
    (stands : e.state ≠ .cleared) (d : Details) (claim : Option Rank) :
    (s.confirm k d claim).events = s.events ∧ (s.confirm k d claim).flags = s.flags := by
  rcases confirm_cases s k d claim with ⟨fresh, _⟩ | ⟨x, _, _, eq⟩ | ⟨x, _, _, eq⟩ | ⟨x, same, cleared, _⟩
  · cases fresh.symm.trans found
  · rw [eq]
    exact ⟨rfl, rfl⟩
  · rw [eq]
    exact ⟨rfl, rfl⟩
  · cases same.symm.trans found
    exact absurd cleared stands

end Sys2Proof.Machine
end

section
/-! SUPPORT. A station lost (R152, R154, R191): its entries of the fault list, the events in their order, and the
tracker (R208). -/

namespace Sys2Proof.Machine

/-! ## The steps of a loss (R191) -/

/-- R191, steps 1 to 3: STATION LOST, no current rank, UNIT SILENT. -/
def State.silenced (s : State) (n : Serial) (r : Rank) : State :=
  ((s.raise (.stationLost n)).setRanks n none).confirm (stationKey n .unitSilent) .empty (some r)

/-- R191, step 4: the keys that a loss orphans. -/
def FaultList.lostKeys (l : FaultList) (n : Serial) : List Key :=
  (l.entries.filter fun e => e.key.serial == n && e.state == .active && e.key.kind != .unitSilent).map Entry.key

theorem loseStation_eq (s : State) (n : Serial) (r : Rank) : s.loseStation n r =
    (((s.silenced n r).faults.lostKeys n).foldl State.orphan (s.silenced n r)).settleList := rfl

/-- R191: an entry orphaned. -/
def Entry.orphaned (e : Entry) : Entry := { e with state := .orphaned, acked := false, extent := 0 }

theorem orphan_entryOf (s : State) (j k : Key) :
    (s.orphan j).faults.entryOf k = if k = j then (s.faults.entryOf k).map Entry.orphaned else s.faults.entryOf k :=
  (raise_entryOf _ _ _).trans (mapEntry_entryOf s j (g := Entry.orphaned) (fun _ => rfl) k)

theorem orphans_entryOf (keys : List Key) (s : State) (k : Key) :
    (keys.foldl State.orphan s).faults.entryOf k =
      if k ∈ keys then (s.faults.entryOf k).map Entry.orphaned else s.faults.entryOf k := by
  induction keys generalizing s with
  | nil => simp
  | cons j keys ih =>
    rw [List.foldl_cons, ih, orphan_entryOf]
    by_cases own : k = j
    · cases s.faults.entryOf k <;> simp [own, Entry.orphaned]
    · simp [own]

theorem orphans_listLaw {s : State} (law : s.listLaw = true) (keys : List Key) :
    (keys.foldl State.orphan s).listLaw = true := by
  induction keys generalizing s with
  | nil => exact law
  | cons j keys ih =>
    refine ih ?_
    unfold State.orphan
    rw [raise_listLaw]
    exact mapEntry_listLaw law j (fun _ => rfl) fun _ a b => ⟨a, b⟩

theorem lostKeys_spares {l : FaultList} {n : Serial} {k : Key} (silent : k.kind = .unitSilent) : k ∉ l.lostKeys n := by
  intro lost
  obtain ⟨e, stands, rfl⟩ := List.mem_map.1 lost
  simpa [silent] using (List.mem_filter.1 stands).2

/-- R191, step 4, in a list that keeps its law. -/
theorem mem_lostKeys {s : State} (law : s.listLaw = true) {n : Serial} {k : Key} {e : Entry}
    (found : s.faults.entryOf k = some e) :
    k ∈ s.faults.lostKeys n ↔ k.serial = n ∧ e.state = .active ∧ k.kind ≠ .unitSilent := by
  obtain ⟨listed, rfl⟩ := entryOf_mem found
  constructor
  · intro lost
    obtain ⟨x, stands, same⟩ := List.mem_map.1 lost
    obtain ⟨there, holds⟩ := List.mem_filter.1 stands
    have eq := (entryOf_of_mem law there).symm.trans (same ▸ found)
    cases eq
    simpa [and_assoc] using holds
  · rintro ⟨serial, active, kind⟩
    exact List.mem_map.2 ⟨e, List.mem_filter.2 ⟨listed, by simp [serial, active, kind]⟩, rfl⟩

/-! ## What stands after a loss -/

theorem silenced_listLaw {s : State} (law : s.listLaw = true) (n : Serial) (r : Rank) :
    (s.silenced n r).listLaw = true :=
  confirm_listLaw (setRanks_listLaw ((raise_listLaw s _).trans law) n none) _ _ _

theorem loseStation_listLaw {s : State} (law : s.listLaw = true) (n : Serial) (r : Rank) :
    (s.loseStation n r).listLaw = true :=
  settleList_listLaw (orphans_listLaw (silenced_listLaw law n r) _)

/-- R191: an entry that a loss does not orphan and that has no extent of its own. -/
theorem loseStation_spared {s : State} {n : Serial} {r : Rank} {k : Key} {e : Entry}
    (found : (s.silenced n r).faults.entryOf k = some e) (spared : k ∉ (s.silenced n r).faults.lostKeys n)
    (plain : e.key.kind ≠ .noSupply ∨ e.key.fn = none ∨ e.state ≠ .active) :
    (s.loseStation n r).faults.entryOf k = some { e with extent := 0 } := by
  rw [loseStation_eq]
  exact settleList_entryOf_zero ((orphans_entryOf _ _ k).trans ((if_neg spared).trans found)) plain

theorem loseStation_lost {s : State} {n : Serial} {r : Rank} {k : Key} {e : Entry}
    (found : (s.silenced n r).faults.entryOf k = some e) (lost : k ∈ (s.silenced n r).faults.lostKeys n) :
    (s.loseStation n r).faults.entryOf k = some e.orphaned := by
  rw [loseStation_eq]
  refine settleList_entryOf_zero (e := e.orphaned) ?_ (.inr (.inr nofun))
  rw [orphans_entryOf, if_pos lost, found, Option.map_some]

/-! ## UNIT SILENT of the lost station -/

theorem silentKey_spared (l : FaultList) (n : Serial) : stationKey n .unitSilent ∉ l.lostKeys n := lostKeys_spares rfl

theorem ranksFor_silent {s : State} {n : Serial} (peer : n ≠ s.cfg.serial) (claim : Option Rank) :
    s.ranksFor (stationKey n .unitSilent) claim = (claim, none) := by
  simp [State.ranksFor, stationKey, peer]

/-- R191, step 2: the entries of the station have no current rank. -/
theorem unranked_entryOf (s : State) (n : Serial) {k : Key} (own : k.serial = n) :
    ((s.raise (.stationLost n)).setRanks n none).faults.entryOf k =
      (s.faults.entryOf k).map fun e => { e with rankCur := none } := by
  rw [setRanks_entryOf, if_pos own, raise_entryOf]

theorem unranked_some {s : State} {n : Serial} {k : Key} {e : Entry} (found : s.faults.entryOf k = some e)
    (own : k.serial = n) :
    ((s.raise (.stationLost n)).setRanks n none).faults.entryOf k = some { e with rankCur := none } := by
  rw [unranked_entryOf s n own, found, Option.map_some]

theorem unranked_length (s : State) (n : Serial) :
    ((s.raise (.stationLost n)).setRanks n none).faults.entries.length = s.faults.entries.length := by
  rw [← raise_faults s (.stationLost n)]
  exact List.length_map _

theorem unranked_cfg (s : State) (n : Serial) : ((s.raise (.stationLost n)).setRanks n none).cfg = s.cfg :=
  ((raise_listOnly s _).trans (mapEntries_listOnly _ _)).cfg

/-- R191, step 3: a station without UNIT SILENT gets it. -/
theorem loseStation_silentNew {s : State} {n : Serial} (r : Rank) (peer : n ≠ s.cfg.serial)
    (fresh : s.faults.entryOf (stationKey n .unitSilent) = none) (room : s.faults.entries.length < 32) :
    ((s.loseStation n r).faults.entryOf (stationKey n .unitSilent)).map
      (fun x => (x.state, x.severity, x.rankConf, x.rankCur)) = some (.active, .major, some r, none) := by
  have made := confirm_entryOf_new ((unranked_entryOf s n rfl).trans (by rw [fresh]; rfl))
    ((unranked_length s n).symm ▸ room) .empty (some r)
  rw [loseStation_spared made (silentKey_spared _ _) (.inr (.inl rfl))]
  have ranks := ranksFor_silent (s := (s.raise (.stationLost n)).setRanks n none) (n := n)
    ((unranked_cfg s n).symm ▸ peer) (some r)
  simp only [Option.map_some, State.newEntry, ranks]
  rfl

/-- R181, R191, step 3: a station with UNIT SILENT has it made ACTIVE. -/
theorem loseStation_silentAgain {s : State} {n : Serial} (r : Rank) (peer : n ≠ s.cfg.serial) {x : Entry}
    (found : s.faults.entryOf (stationKey n .unitSilent) = some x) :
    (s.loseStation n r).faults.entryOf (stationKey n .unitSilent) = some (if x.state = .cleared then
      { x with
        state := .active, acked := false, occurrences := min 255 (x.occurrences + 1), rankConf := some r
        rankCur := none, details := Details.empty, extent := 0 }
      else { x with state := .active, rankCur := none, details := Details.empty, extent := 0 }) := by
  obtain ⟨-, key⟩ := entryOf_mem found
  have unranked := unranked_some found (n := n) rfl
  by_cases cleared : x.state = .cleared
  · rw [if_pos cleared]
    have ranks := ranksFor_silent (s := (s.raise (.stationLost n)).setRanks n none) (n := n)
      ((unranked_cfg s n).symm ▸ peer) (some r)
    have again := confirm_entryOf_cleared unranked cleared .empty (some r)
    rw [ranks] at again
    exact loseStation_spared again (silentKey_spared _ _) (.inr (.inl (congrArg Key.fn key)))
  · rw [if_neg cleared]
    exact loseStation_spared (confirm_entryOf_standing unranked cleared .empty (some r)) (silentKey_spared _ _)
      (.inr (.inl (congrArg Key.fn key)))

/-! ## The other entries of the lost station -/

theorem other_ne_silentKey {n : Serial} {k : Key} (kind : k.kind ≠ .unitSilent) : k ≠ stationKey n .unitSilent :=
  fun same => kind (same ▸ rfl)

/-- R183, R191: what stands is only taken its current rank by the steps before the orphaning. -/
theorem silenced_stands {s : State} {n : Serial} (r : Rank) {k : Key} {e : Entry} (found : s.faults.entryOf k = some e)
    (own : k.serial = n) (kind : k.kind ≠ .unitSilent) (stands : e.state ≠ .cleared) :
    (s.silenced n r).faults.entryOf k = some { e with rankCur := none } :=
  confirm_entryOf_stands (other_ne_silentKey kind) (unranked_some found own) stands _ _

/-- R191, step 4: an ACTIVE entry of the station turns ORPHANED. -/
theorem loseStation_active {s : State} (law : s.listLaw = true) {n : Serial} (r : Rank) {k : Key} {e : Entry}
    (found : s.faults.entryOf k = some e) (own : k.serial = n) (kind : k.kind ≠ .unitSilent)
    (active : e.state = .active) : (s.loseStation n r).faults.entryOf k = some { e with
      state := .orphaned, acked := false, rankCur := none, extent := 0 } := by
  have stood := silenced_stands r found own kind (by simp [active])
  exact loseStation_lost stood ((mem_lostKeys (silenced_listLaw law n r) stood).2 ⟨own, active, kind⟩)

/-- R191: an entry of the station that is not ACTIVE keeps its state. -/
theorem loseStation_idle {s : State} (law : s.listLaw = true) {n : Serial} (r : Rank) {k : Key} {e : Entry}
    (found : s.faults.entryOf k = some e) (own : k.serial = n) (kind : k.kind ≠ .unitSilent)
    (idle : e.state ≠ .active) (room : e.state = .cleared → s.faults.entries.length < 32) :
    (s.loseStation n r).faults.entryOf k = some { e with rankCur := none, extent := 0 } := by
  have stood : (s.silenced n r).faults.entryOf k = some { e with rankCur := none } := by
    by_cases cleared : e.state = .cleared
    · exact (confirm_entryOf_other (other_ne_silentKey kind) ((unranked_length s n).symm ▸ room cleared) _ _).trans
        (unranked_some found own)
    · exact silenced_stands r found own kind cleared
  refine loseStation_spared stood (fun lost => ?_) (.inr (.inr idle))
  obtain ⟨-, active, -⟩ := (mem_lostKeys (silenced_listLaw law n r) stood).1 lost
  exact idle active

/-- R191: none of them is ACTIVE, has a current rank or an extent. -/
theorem loseStation_mem {s : State} (law : s.listLaw = true) {n : Serial} {r : Rank} {e : Entry}
    (listed : e ∈ (s.loseStation n r).faults.entries) (own : e.key.serial = n) (kind : e.key.kind ≠ .unitSilent) :
    e.state ≠ .active ∧ e.rankCur = none ∧ e.extent = 0 := by
  have last := entryOf_of_mem (loseStation_listLaw law n r) listed
  have before : ∃ x, (s.silenced n r).faults.entryOf e.key = some x := by
    rw [loseStation_eq, settleList_entryOf, orphans_entryOf] at last
    cases found : (s.silenced n r).faults.entryOf e.key with
    | none => simp [found] at last
    | some x => exact ⟨x, rfl⟩
  obtain ⟨x, found⟩ := before
  obtain ⟨stood, key⟩ := entryOf_mem found
  have unranked : x.rankCur = none := by
    obtain ⟨y, -, rfl⟩ := List.mem_map.1 (confirm_mem_other stood (key ▸ other_ne_silentKey kind))
    by_cases mine : y.key.serial = n
    · simp [mine]
    · rw [if_neg mine] at key
      exact absurd ((congrArg Key.serial key).trans own) mine
  have keep := mem_lostKeys (silenced_listLaw law n r) (n := n) found
  by_cases active : x.state = .active
  · rw [loseStation_lost found (keep.2 ⟨own, active, kind⟩)] at last
    cases last
    exact ⟨nofun, unranked, rfl⟩
  · rw [loseStation_spared found (fun lost => active (keep.1 lost).2.1) (.inr (.inr active))] at last
    cases last
    exact ⟨active, unranked, rfl⟩

/-! ## The events of a loss -/

theorem orphan_adds (s : State) (k : Key) : EventsAdd s (s.orphan k) :=
  raise_adds (s.mapEntry k fun e => { e with state := .orphaned, acked := false, extent := 0 }) _

/-- R191, step 1: STATION LOST comes first. -/
theorem loseStation_head? {s : State} (head : s.isHead = true) (empty : s.events = []) (n : Serial) (r : Rank) :
    (s.loseStation n r).events.head? = some ⟨.stationLost n, s.trainSeconds⟩ := by
  have first : (s.raise (.stationLost n)).events = [⟨.stationLost n, s.trainSeconds⟩] := by
    rw [raise_room head (by simp [empty])]
    simp [empty]
  have rest : EventsAdd ((s.raise (.stationLost n)).setRanks n none) (s.loseStation n r) :=
    ((confirm_adds _ _ _ _).trans (.foldl orphan_adds _ _)).trans (settleList_adds _)
  exact rest.head? first

/-- R177: the index of a key in a list of different keys. -/
theorem indexOf_eq {l : FaultList} (keys : (l.entries.map Entry.key).Nodup) {i : Nat} {e : Entry}
    (there : l.entries[i]? = some e) : l.indexOf e.key = some i := by
  obtain ⟨bound, rfl⟩ := List.getElem?_eq_some_iff.1 there
  refine List.findIdx?_eq_some_iff_getElem.2 ⟨bound, by simp, fun j less same => ?_⟩
  have inside : j < l.entries.length := less.trans bound
  have eq := (List.Nodup.getElem_inj_iff keys (i := j) (j := i) (hi := by simpa using inside)
    (hj := by simpa using bound)).1 (by simpa using same)
  exact absurd eq less.ne

theorem mapEntries_indexOf (s : State) {g : Entry → Entry} (keys : ∀ e, (g e).key = e.key) (k : Key) :
    (s.mapEntries g).faults.indexOf k = s.faults.indexOf k := by
  show List.findIdx? _ (List.map g s.faults.entries) = _
  rw [List.findIdx?_map]
  exact congrArg (List.findIdx? · _) (funext fun e => by simp [keys])

theorem orphan_indexOf (s : State) (j k : Key) : (s.orphan j).faults.indexOf k = s.faults.indexOf k := by
  unfold State.orphan
  rw [raise_faults]
  exact mapEntries_indexOf s (fun e => by split <;> rfl) k

/-- R191, step 4: FAULT ORPHANED for each key, with the index it holds. -/
theorem orphans_events (keys : List Key) {s : State} (head : s.isHead = true)
    (room : s.events.length + keys.length ≤ 16) :
    (keys.foldl State.orphan s).events = s.events ++ keys.map fun k =>
      ⟨.faultOrphaned ((s.faults.indexOf k).getD 0) k.serial, s.trainSeconds⟩ := by
  induction keys generalizing s with
  | nil => simp
  | cons j keys ih =>
    have one : (s.orphan j).events =
        s.events ++ [⟨.faultOrphaned ((s.faults.indexOf j).getD 0) j.serial, s.trainSeconds⟩] := by
      have fits : s.events.length < 16 := by simp at room; omega
      exact congrArg State.events (raise_room (s := s.mapEntry j _) head fits _)
    have same := orphan_listOnly s j
    have headToo : (s.orphan j).isHead = true := by rw [same]; exact head
    have seconds : (s.orphan j).trainSeconds = s.trainSeconds := by rw [same]
    rw [List.foldl_cons, ih headToo (by rw [one]; simp at room ⊢; omega), one, seconds]
    simp [orphan_indexOf]

/-- R181, R183: the first confirmation of a key, where the list has room. -/
theorem confirm_eq_append {s : State} {k : Key} (fresh : s.faults.entryOf k = none)
    (room : s.faults.entries.length < 32) (d : Details) (claim : Option Rank) :
    s.confirm k d claim = s.append s.faults.entries (s.newEntry k d claim) := by
  unfold State.confirm State.makeEntry
  rw [fresh]
  exact if_pos room

theorem ListOnly.isHead {s t : State} (h : ListOnly s t) : t.isHead = s.isHead := by
  rw [h]
  rfl

theorem ListOnly.trainSeconds {s t : State} (h : ListOnly s t) : t.trainSeconds = s.trainSeconds := by rw [h]

theorem setRanks_listOnly (s : State) (n : Serial) (r : Option Rank) : ListOnly s (s.setRanks n r) := rfl

/-- R200: an event in a queue with room. -/
theorem raise_events {s : State} (head : s.isHead = true) (room : s.events.length < 16) (b : EventBody) :
    (s.raise b).events = s.events ++ [⟨b, s.trainSeconds⟩] := congrArg State.events (raise_room head room b)

/-- R183: the event of an append. -/
theorem append_events {s : State} (head : s.isHead = true) (room : s.events.length < 16) (es : List Entry) (e : Entry) :
    (s.append es e).events = s.events ++ [⟨.faultConfirmed es.length e.key.serial, s.trainSeconds⟩] := by
  unfold State.append
  exact raise_events (s := { s with faults := { s.faults with entries := es ++ [e] } }) head room _

/-- R183, R191: the list and the queue once a station without UNIT SILENT has it. -/
theorem silenced_new {s : State} (head : s.isHead = true) (empty : s.events = []) {n : Serial} (r : Rank)
    (fresh : s.faults.entryOf (stationKey n .unitSilent) = none) (room : s.faults.entries.length < 32) :
    (∃ d, d.key = stationKey n .unitSilent ∧ (s.silenced n r).faults.entries =
      (s.faults.entries.map fun e => if e.key.serial = n then { e with rankCur := none } else e) ++ [d]) ∧
    (s.silenced n r).events = [⟨.stationLost n, s.trainSeconds⟩,
      ⟨.faultConfirmed s.faults.entries.length n, s.trainSeconds⟩] := by
  have first : (s.raise (.stationLost n)).events = [⟨.stationLost n, s.trainSeconds⟩] := by
    rw [raise_events head (by simp [empty]), empty]
    rfl
  have lost := (unranked_entryOf s n (k := stationKey n .unitSilent) rfl).trans (congrArg _ fresh)
  have made : s.silenced n r = _ := confirm_eq_append lost ((unranked_length s n).symm ▸ room) .empty (some r)
  rw [made]
  refine ⟨⟨((s.raise (.stationLost n)).setRanks n none).newEntry (stationKey n .unitSilent) .empty (some r), rfl, ?_⟩,
    ?_⟩
  · rw [append_faults, ← raise_faults s (.stationLost n)]
    rfl
  · have only := (raise_listOnly s (.stationLost n)).trans (setRanks_listOnly _ n none)
    have fits : ((s.raise (.stationLost n)).setRanks n none).events = [⟨.stationLost n, s.trainSeconds⟩] := first
    rw [append_events (only.isHead.trans head) (by simp [first]), fits, unranked_length, only.trainSeconds]
    rfl

/-- R191, step 4: what a loss orphans, where the station has no UNIT SILENT. -/
theorem silenced_lostKeys {s : State} {n : Serial} {r : Rank} {d : Entry} (new : d.key = stationKey n .unitSilent)
    (entries : (s.silenced n r).faults.entries =
      (s.faults.entries.map fun e => if e.key.serial = n then { e with rankCur := none } else e) ++ [d])
    (none_ : ∀ x ∈ s.faults.entries, x.key.serial = n → x.key.kind ≠ .unitSilent) :
    (s.silenced n r).faults.lostKeys n = (s.faults.entries.filter fun e =>
      e.key.serial == n && e.state == .active).map Entry.key := by
  have skipped : (d.key.kind != .unitSilent) = false := by rw [new]; rfl
  unfold FaultList.lostKeys
  rw [entries]
  generalize s.faults.entries = es at none_ ⊢
  induction es with
  | nil => simp [skipped]
  | cons e es ih =>
    have rest := ih fun x listed => none_ x (List.mem_cons_of_mem _ listed)
    by_cases own : e.key.serial = n
    · have kind := none_ e List.mem_cons_self own
      by_cases active : e.state = .active <;> simpa [own, kind, active] using rest
    · simpa [own] using rest

/-- R191: the events of a loss, in their order. -/
theorem loseStation_events {s : State} (head : s.isHead = true) (empty : s.events = []) {n : Serial} (r : Rank)
    (keys : (s.faults.entries.map Entry.key).Nodup) (room : s.faults.entries.length < 32)
    (none_ : ∀ x ∈ s.faults.entries, x.key.serial = n → x.key.kind ≠ .unitSilent)
    (few : (s.faults.entries.zipIdx.filter fun x => x.1.key.serial == n && x.1.state == .active).length ≤ 14) :
    (s.loseStation n r).events =
      ⟨.stationLost n, s.trainSeconds⟩ :: ⟨.faultConfirmed s.faults.entries.length n, s.trainSeconds⟩ ::
        (s.faults.entries.zipIdx.filter fun x => x.1.key.serial == n && x.1.state == .active).map fun x =>
          ⟨.faultOrphaned x.2 n, s.trainSeconds⟩ := by
  have fresh : s.faults.entryOf (stationKey n .unitSilent) = none := List.find?_eq_none.2 fun x listed same => by
    have key : x.key = stationKey n .unitSilent := by simpa using same
    exact none_ x listed (congrArg Key.serial key) (congrArg Key.kind key)
  obtain ⟨⟨d, new, entries⟩, events⟩ := silenced_new head empty r fresh room
  have lost := silenced_lostKeys new entries none_
  have only : ListOnly s (s.silenced n r) :=
    ((raise_listOnly s _).trans (setRanks_listOnly _ _ _)).trans (confirm_listOnly _ _ _ _)
  have mine : s.faults.entries.filter (fun e => e.key.serial == n && e.state == .active) =
      (s.faults.entries.zipIdx.filter fun x => x.1.key.serial == n && x.1.state == .active).map Prod.fst := by
    conv_lhs => rw [← List.zipIdx_map_fst 0 s.faults.entries]
    rw [List.filter_map]
    rfl
  have index (x : Entry × Nat) (listed : x ∈ s.faults.entries.zipIdx) :
      (s.silenced n r).faults.indexOf x.1.key = some x.2 := by
    have there : s.faults.entries[x.2]? = some x.1 := List.mk_mem_zipIdx_iff_getElem?.1 listed
    obtain ⟨bound, at_⟩ := List.getElem?_eq_some_iff.1 there
    have held : (s.silenced n r).faults.entries[x.2]? =
        some (if x.1.key.serial = n then { x.1 with rankCur := none } else x.1) := by
      rw [entries, List.getElem?_append_left (by simpa using bound), List.getElem?_map, there, Option.map_some]
    have found := indexOf_eq (l := (s.silenced n r).faults) ?_ held
    · simpa [apply_ite Entry.key] using found
    · rw [entries, List.map_append, List.map_map]
      have same : (Entry.key ∘ fun e : Entry => if e.key.serial = n then { e with rankCur := none } else e) =
          Entry.key := funext fun e => by simp [apply_ite Entry.key]
      rw [same, List.nodup_append]
      refine ⟨keys, by simp, fun a old b latest same => ?_⟩
      obtain ⟨y, listed, rfl⟩ := List.mem_map.1 old
      have key : y.key = stationKey n .unitSilent := by simp at latest; rw [same, latest, new]
      exact none_ y listed (congrArg Key.serial key) (congrArg Key.kind key)
  rw [loseStation_eq, settleList_events, lost, orphans_events _ (only.isHead.trans head), events, only.trainSeconds,
    mine]
  · refine congrArg (_ :: _ :: ·) ?_
    rw [List.map_map, List.map_map]
    refine List.map_congr_left fun x there => ?_
    obtain ⟨listed, holds⟩ := List.mem_filter.1 there
    have own : x.1.key.serial = n := by simp at holds; exact holds.1
    simp [index x listed, own]
  · rw [events, mine]
    simp
    omega

/-! ## The tracker (R208) -/

theorem trackExpiry_untracked {s : State} {n : Serial} (none_ : ∀ u ∈ s.learner.tracked, u.serial ≠ n) :
    s.trackExpiry n = s := if_neg (by simpa using none_)

theorem trackExpiry_tracked {s : State} {n : Serial} {u : Tracked} (there : u ∈ s.learner.tracked)
    (own : u.serial = n) : s.trackExpiry n = s.untrack n .lost :=
  if_pos (List.any_eq_true.2 ⟨u, there, by simpa using own⟩)

theorem untrack_learner (s : State) (n : Serial) (d : LearnDone) :
    (s.untrack n d).learner = { s.learner with tracked := s.learner.tracked.filter (·.serial != n) } := by
  simp [State.untrack]

theorem trackExpiry_faults (s : State) (n : Serial) : (s.trackExpiry n).faults = s.faults := by
  unfold State.trackExpiry State.untrack
  split <;> simp

theorem trackExpiry_adds (s : State) (n : Serial) : EventsAdd s (s.trackExpiry n) := by
  unfold State.trackExpiry
  split
  · exact raise_adds { s with learner := { s.learner with tracked := s.learner.tracked.filter (·.serial != n) } } _
  · exact .same rfl

theorem trackExpiry_frame (s : State) (n : Serial) : s.trackExpiry n =
    { s with events := (s.trackExpiry n).events, flags := (s.trackExpiry n).flags
             learner := (s.trackExpiry n).learner } := by
  unfold State.trackExpiry
  split
  · apply state_ext <;> simp [State.untrack]
  · rfl

/-- R208: LEARN DONE of a tracked station lost, in a queue with room. -/
theorem trackExpiry_events {s : State} (head : s.isHead = true) (room : s.events.length < 16) {n : Serial} {u : Tracked}
    (there : u ∈ s.learner.tracked) (own : u.serial = n) :
    (s.trackExpiry n).events = s.events ++ [⟨.learnDone n .lost, s.trainSeconds⟩] := by
  rw [trackExpiry_tracked there own]
  exact raise_events
    (s := { s with learner := { s.learner with tracked := s.learner.tracked.filter (·.serial != n) } }) head room _

/-! ## The command -/

/-- R152: an entry that has reached 1500 ms expires. -/
theorem rosterExpiry_slot {s : State} {r : Rank} {e : RosterEntry} (there : s.roster.slots[r] = some e)
    (old : e.heard + 1500 ≤ s.now) : exec (.rosterExpiry (.slot r)) s = .next (s.expireSlot r e) := by
  have due : s.expired (.slot r) = some e :=
    Option.filter_eq_some_iff.2 ⟨there, by simpa [RosterEntry.isExpired] using old⟩
  show Host.Outcome.next _ = _
  rw [due]

theorem rosterExpiry_unplaced {s : State} {i : Fin 4} {e : RosterEntry} (there : s.roster.unplaced[i.val]? = some e)
    (old : e.heard + 1500 ≤ s.now) : exec (.rosterExpiry (.unplaced i)) s = .next (s.expireUnplaced i.val e) := by
  have due : s.expired (.unplaced i) = some e :=
    Option.filter_eq_some_iff.2 ⟨there, by simpa [RosterEntry.isExpired] using old⟩
  show Host.Outcome.next _ = _
  rw [due]

/-- R152: the state without the entry of a slot. -/
def State.slotEmptied (s : State) (r : Rank) : State :=
  { s with roster := { s.roster with slots := put s.roster.slots r none } }

theorem expireSlot_head {s : State} (head : s.isHead = true) (r : Rank) (e : RosterEntry) :
    s.expireSlot r e = ((s.slotEmptied r).loseStation e.serial r).trackExpiry e.serial := if_pos head

theorem expireSlot_faults {s : State} (head : s.isHead = true) (r : Rank) (e : RosterEntry) :
    (s.expireSlot r e).faults = ((s.slotEmptied r).loseStation e.serial r).faults := by
  rw [expireSlot_head head, trackExpiry_faults]

theorem expireSlot_frame (s : State) (r : Rank) (e : RosterEntry) : s.expireSlot r e = { s.slotEmptied r with
    faults := (s.expireSlot r e).faults, warn := (s.expireSlot r e).warn, events := (s.expireSlot r e).events
    flags := (s.expireSlot r e).flags, learner := (s.expireSlot r e).learner } := by
  cases head : s.isHead with
  | false =>
    rw [expireSlot_unit r e head]
    rfl
  | true =>
    have only : ListOnly (s.slotEmptied r) _ := loseStation_listOnly (s.slotEmptied r) e.serial r
    rw [expireSlot_head head, trackExpiry_frame, only]

/-- R152: the state without an unplaced entry. -/
def State.unplacedLess (s : State) (i : Nat) : State :=
  { s with roster := { s.roster with unplaced := s.roster.unplaced.eraseIdx i } }

/-- R154: the rank clash that an unplaced entry held open ends with it. -/
def State.clashDropped (s : State) (e : RosterEntry) : State :=
  if e.clash then s.rankClashInput e.serial false none else s

theorem clashDropped_listOnly (s : State) (e : RosterEntry) : ListOnly s (s.clashDropped e) := by
  unfold State.clashDropped
  split
  · exact rankClashInput_listOnly _ _ _ _
  · exact .refl s

theorem expireUnplaced_head {s : State} (head : s.isHead = true) (i : Nat) (e : RosterEntry) :
    s.expireUnplaced i e = ((s.unplacedLess i).clashDropped e).trackExpiry e.serial := if_pos head

/-- R192: an ended rank clash stands no more. -/
theorem rankClashInput_ends (s : State) (n : Serial) (claim : Option Rank) :
    ((s.rankClashInput n false claim).faults.entryOf (stationKey n .rankClash)).all (fun x => x.state == .cleared) =
      true := by
  have cleared := clear_entryOf s (stationKey n .rankClash)
  show ((s.clear (stationKey n .rankClash)).settleList.faults.entryOf _).all _ = true
  rw [settleList_entryOf, Option.all_map]
  exact cleared

/-- R208: a tracked station that loses its slot ends LOST. -/
theorem expireSlot_tracked {s : State} (head : s.isHead = true) (r : Rank) {e : RosterEntry} {u : Tracked}
    (there : u ∈ s.learner.tracked) (own : u.serial = e.serial) :
    (s.expireSlot r e).learner =
        { s.learner with tracked := s.learner.tracked.filter fun x => x.serial != e.serial } ∧
      (s.events = [] → s.faults.entries = [] → (s.expireSlot r e).events =
        [⟨.stationLost e.serial, s.trainSeconds⟩, ⟨.faultConfirmed 0 e.serial, s.trainSeconds⟩,
          ⟨.learnDone e.serial .lost, s.trainSeconds⟩]) := by
  have only : ListOnly (s.slotEmptied r) _ := loseStation_listOnly (s.slotEmptied r) e.serial r
  have learner : ((s.slotEmptied r).loseStation e.serial r).learner = s.learner := by rw [only]; rfl
  rw [expireSlot_head head]
  refine ⟨?_, fun empty noEntries => ?_⟩
  · rw [trackExpiry_tracked (learner.symm ▸ there) own, untrack_learner, learner]
  · have faults : (s.slotEmptied r).faults.entries = [] := noEntries
    have events := loseStation_events (s := s.slotEmptied r) head empty (n := e.serial) r (by simp [faults])
      (by simp [faults]) (by simp [faults]) (by simp [faults])
    simp only [faults, List.zipIdx_nil, List.filter_nil, List.map_nil, List.length_nil] at events
    rw [trackExpiry_events (only.isHead.trans head) (by simp [events]) (learner.symm ▸ there) own, events,
      only.trainSeconds]
    rfl

/-- R208: so does one that leaves the unplaced list. -/
theorem expireUnplaced_tracked {s : State} (head : s.isHead = true) (i : Nat) {e : RosterEntry} {u : Tracked}
    (there : u ∈ s.learner.tracked) (own : u.serial = e.serial) :
    (s.expireUnplaced i e).learner =
        { s.learner with tracked := s.learner.tracked.filter fun x => x.serial != e.serial } ∧
      (e.clash = false → s.events = [] →
        (s.expireUnplaced i e).events = [⟨.learnDone e.serial .lost, s.trainSeconds⟩]) := by
  have only := clashDropped_listOnly (s.unplacedLess i) e
  have learner : ((s.unplacedLess i).clashDropped e).learner = s.learner := by rw [only]; rfl
  rw [expireUnplaced_head head]
  refine ⟨?_, fun calm empty => ?_⟩
  · rw [trackExpiry_tracked (learner.symm ▸ there) own, untrack_learner, learner]
  · have same : (s.unplacedLess i).clashDropped e = s.unplacedLess i := if_neg (by simp [calm])
    have events : (s.unplacedLess i).events = [] := empty
    rw [same, trackExpiry_events (s := s.unplacedLess i) head (by rw [events]; decide) there own, events]
    rfl

/-- R152, R154: what the expiry of an unplaced entry does. -/
theorem expireUnplaced_roster (s : State) (i : Nat) (e : RosterEntry) :
    (s.expireUnplaced i e).roster = { s.roster with unplaced := s.roster.unplaced.eraseIdx i } := by
  cases head : s.isHead with
  | false => rw [expireUnplaced_unit i e head]
  | true => rw [expireUnplaced_head head, trackExpiry_frame, clashDropped_listOnly (s.unplacedLess i) e]; rfl

/-- Settles O46: the loss of a station is followed entry by entry through its steps, and the queue event by event. -/
theorem expiryRemovesEntry : Obligations.ExpiryRemovesEntry := by
  unfold Obligations.ExpiryRemovesEntry
  intro e s old
  refine ⟨fun r there => ⟨_, rosterExpiry_slot there old, ?_⟩, fun i there =>
    ⟨_, rosterExpiry_unplaced there old, ?_⟩⟩
  · have roster : (s.expireSlot r e).roster = { s.roster with slots := put s.roster.slots r none } := by
      rw [expireSlot_frame]
      rfl
    refine ⟨(expireSlot_frame s r e).trans (by rw [roster]; rfl), ?_, ?_, fun x other => ?_, fun unit => ?_,
      fun head empty => ?_, fun head fresh room peer => ?_, fun x head peer found => ?_, fun head law => ?_,
      fun u there head own => expireSlot_tracked head r there own⟩
    · rw [roster]
      exact put_same _ _ _
    · rw [roster]
    · rw [roster]
      exact put_other _ _ other
    · rw [expireSlot_unit r e unit]
      exact ⟨rfl, rfl, rfl, rfl, rfl⟩
    · rw [expireSlot_head head]
      obtain ⟨rest, added⟩ := trackExpiry_adds ((s.slotEmptied r).loseStation e.serial r) e.serial
      rw [← added, List.head?_append,
        loseStation_head? (s := s.slotEmptied r) head empty e.serial r]
      rfl
    · rw [expireSlot_faults head]
      exact loseStation_silentNew (s := s.slotEmptied r) r peer fresh room
    · rw [expireSlot_faults head]
      exact loseStation_silentAgain (s := s.slotEmptied r) r peer found
    · have emptied : (s.slotEmptied r).listLaw = true := law
      have lookup {x : Entry} (listed : x ∈ s.faults.entries) : s.faults.entryOf x.key = some x :=
        entryOf_of_mem law listed
      simp only [expireSlot_faults head]
      refine ⟨fun x listed mine active => ?_, fun x listed mine orphaned => ?_, fun x listed mine cleared room => ?_,
        fun x listed mine => loseStation_mem emptied listed mine.1 mine.2,
        fun empty room none_ few untracked => ?_⟩
      · exact loseStation_active emptied r (lookup listed) mine.1 mine.2 active
      · exact loseStation_idle emptied r (lookup listed) mine.1 mine.2 (by simp [orphaned]) (by simp [orphaned])
      · exact loseStation_idle emptied r (lookup listed) mine.1 mine.2 (by simp [cleared]) fun _ => room
      · obtain ⟨-, keys, -⟩ := (listLaw_iff s).1 law
        have learner : ((s.slotEmptied r).loseStation e.serial r).learner = s.learner := by
          rw [loseStation_listOnly (s.slotEmptied r) e.serial r]
          rfl
        rw [expireSlot_head head, trackExpiry_untracked (learner.symm ▸ untracked)]
        exact loseStation_events (s := s.slotEmptied r) head empty r keys room none_ few
  · refine ⟨?_, ?_, fun unit => ?_, fun head clash => ?_, fun u there head own =>
      expireUnplaced_tracked head i.val there own⟩
    · rw [expireUnplaced_roster]
    · rw [expireUnplaced_roster]
    · rw [expireUnplaced_unit _ e unit]
    · have dropped : (s.unplacedLess i.val).clashDropped e =
          (s.unplacedLess i.val).rankClashInput e.serial false none := if_pos clash
      rw [expireUnplaced_head head, trackExpiry_faults, dropped]
      exact rankClashInput_ends _ _ _

end Sys2Proof.Machine
end

section
/-! SUPPORT. One entry of the fault list through the two passes of a STATUS (R186 to R189). Each step of a pass acts on
the key of its own circuit or function, so every key is followed by itself. -/

namespace Sys2Proof.Machine

/-! ## States that the passes reach -/

/-- R180: from b to s the list alone changed, its law held on, and it has at most n entries. -/
structure Within (b : State) (n : Nat) (s : State) : Prop where
  only : ListOnly b s
  law : b.listLaw = true → s.listLaw = true
  length : s.faults.entries.length ≤ n

theorem Within.start {b : State} {n : Nat} (length : b.faults.entries.length ≤ n) : Within b n b :=
  ⟨.refl b, id, length⟩

theorem Within.mono {b s : State} {m n : Nat} (w : Within b m s) (le : m ≤ n) : Within b n s :=
  ⟨w.only, w.law, w.length.trans le⟩

theorem Within.raise {b s : State} {n : Nat} (w : Within b n s) (x : EventBody) : Within b n (s.raise x) where
  only := w.only.trans (raise_listOnly _ _)
  law h := (raise_listLaw s x).trans (w.law h)
  length := by rw [raise_faults]; exact w.length

theorem Within.clear {b s : State} {n : Nat} (w : Within b n s) (k : Key) : Within b n (s.clear k) where
  only := w.only.trans (clear_listOnly _ _)
  law h := clear_listLaw (w.law h) k
  length := (clear_length s k).trans w.length

theorem Within.detail {b s : State} {n : Nat} (w : Within b n s) (k : Key) (g : Details → Details) :
    Within b n (s.detail k g) where
  only := w.only.trans (detail_listOnly _ _ _)
  law h := detail_listLaw (w.law h) k g
  length := (List.length_map _).le.trans w.length

theorem Within.setRanks {b s : State} {m : Nat} (w : Within b m s) (n : Serial) (r : Option Rank) :
    Within b m (s.setRanks n r) where
  only := w.only.trans (setRanks_listOnly _ _ _)
  law h := setRanks_listLaw (w.law h) n r
  length := (List.length_map _).le.trans w.length

theorem Within.confirm {b s : State} {n : Nat} (w : Within b n s) (k : Key) (d : Details) (claim : Option Rank) :
    Within b (n + 1) (s.confirm k d claim) where
  only := w.only.trans (confirm_listOnly _ _ _ _)
  law h := confirm_listLaw (w.law h) k d claim
  length := (confirm_length s k d claim).trans (Nat.add_le_add_right w.length 1)

theorem Within.settleList {b s : State} {n : Nat} (w : Within b n s) : Within b n s.settleList where
  only := w.only.trans (settleList_listOnly _)
  law h := settleList_listLaw (w.law h)
  length := (settleList_length s).le.trans w.length

/-! ## One element of a fold -/

/-- R180: a step that adds at most d entries. -/
def Grows (d : Nat) (f : State → Circ → State) : Prop :=
  ∀ b n s c, Within b n s → Within b (n + d) (f s c)

/-- R180: a step of c leaves the entry of k, where the list has room. -/
def LeavesAlone (f : State → Circ → State) (k : Key) (c : Circ) : Prop :=
  ∀ s, s.faults.entries.length < 32 → (f s c).faults.entryOf k = s.faults.entryOf k

theorem foldl_within {d : Nat} {f : State → Circ → State} (grows : Grows d f) {b s : State} {n : Nat} (l : List Circ)
    (w : Within b n s) : Within b (n + d * l.length) (l.foldl f s) := by
  induction l generalizing s n with
  | nil => simpa using w
  | cons a l ih =>
    refine (ih (grows b n s a w)).mono ?_
    rw [List.length_cons, Nat.mul_succ]
    omega

/-- R180: a fold none of whose elements acts on k. -/
theorem foldl_entryOf {d : Nat} {f : State → Circ → State} (grows : Grows d f) {k : Key} {b s : State} {n : Nat}
    {l : List Circ} (others : ∀ a ∈ l, LeavesAlone f k a) (w : Within b n s) (room : n + d * l.length ≤ 31 + d) :
    (l.foldl f s).faults.entryOf k = s.faults.entryOf k := by
  induction l generalizing s n with
  | nil => rfl
  | cons a l ih =>
    rw [List.length_cons, Nat.mul_succ] at room
    have fits : n ≤ 31 := by omega
    have first := others a List.mem_cons_self s (Nat.lt_of_le_of_lt w.length (Nat.lt_succ_of_le fits))
    by_cases last : l = []
    · subst last
      exact first
    · have rest : 1 ≤ l.length := List.length_pos_iff.2 last
      have more : d ≤ d * l.length := Nat.le_mul_of_pos_right d rest
      exact (ih (fun x listed => others x (List.mem_cons_of_mem a listed)) (grows b n s a w) (by omega)).trans first

/-- R180: a fold of whose elements c alone acts on k. -/
theorem foldl_alone {d : Nat} {f : State → Circ → State} (grows : Grows d f) {k : Key} {c : Circ} {b s : State}
    {n : Nat} (others : ∀ a, a ≠ c → LeavesAlone f k a) (w : Within b n s) (room : n + d * 8 ≤ 31 + d) :
    ∃ u, Within b 31 u ∧ u.faults.entryOf k = s.faults.entryOf k ∧
      (allCirc.foldl f s).faults.entryOf k = (f u c).faults.entryOf k := by
  obtain ⟨front, back, split⟩ := List.append_of_mem (mem_allCirc c)
  have once : (front ++ c :: back).Nodup := split ▸ allCirc_nodup
  have total : front.length + (back.length + 1) = 8 := by
    have := congrArg List.length split
    simpa [allCirc] using this.symm
  have outside (a : Circ) (there : a ∈ front ∨ a ∈ back) : a ≠ c := by
    rintro rfl
    rcases there with before | after
    · exact (List.nodup_append.1 once).2.2 a before a List.mem_cons_self rfl
    · exact (List.nodup_cons.1 (List.nodup_append.1 once).2.1).1 after
  have count : d * 8 = d * front.length + (d * back.length + d) := by
    rw [← total, Nat.mul_add, Nat.mul_add, Nat.mul_one]
  have reached := foldl_within grows front w
  have fits : n + d * front.length ≤ 31 := by omega
  refine ⟨front.foldl f s, reached.mono fits, ?_, ?_⟩
  · by_cases some_ : front = []
    · rw [some_]
      rfl
    · exact foldl_entryOf grows (fun a there => others a (outside a (.inl there))) w (by omega)
  · rw [split, List.foldl_append, List.foldl_cons]
    exact foldl_entryOf grows (fun a there => others a (outside a (.inr there)))
      (grows b _ _ c reached) (by omega)

/-! ## The keys of a report (R177, R186, R187) -/

/-- R186: the circuit-keyed fault that a report shows at a circuit. -/
def Report.keyAt (x : Report) (n : Serial) (c : Circ) : Option Key :=
  (x.circuits[c].confirmed.filter fun k => k ≠ .noSupply).map fun k => ⟨n, k, some c, some x.circuits[c].fn⟩

theorem reportKey_some (n : Serial) (x : Report) (c : Circ) :
    reportKey n (some x) c = (x.keyAt n c).map fun k => (k, k.kind) := by
  unfold reportKey Report.keyAt CircuitReport.circuitKind
  dsimp only
  cases x.circuits[c].confirmed with
  | none => rfl
  | some k => cases k <;> rfl

theorem keyAt_eq {x : Report} {n : Serial} {c : Circ} {k : Key} : x.keyAt n c = some k ↔
    ∃ y, x.circuits[c].confirmed = some y ∧ y ≠ .noSupply ∧ k = ⟨n, y, some c, some x.circuits[c].fn⟩ := by
  unfold Report.keyAt
  cases x.circuits[c].confirmed with
  | none => simp
  | some y => by_cases supply : y = .noSupply <;> simp [Option.filter, supply, eq_comm]

/-- R177: the key of a loss of function F. -/
def lossKey (n : Serial) (f : LampFn) : Key := ⟨n, .noSupply, none, some f⟩

theorem circuitKey_loss (n : Serial) (f : LampFn) : circuitKey n .noSupply 0 f = lossKey n f := rfl

theorem ofIdx_idx (f : LampFn) : LampFn.ofIdx f.idx = f := by cases f <;> rfl

theorem idx_ofIdx (i : Circ) : (LampFn.ofIdx i).idx = i := by fin_cases i <;> rfl

theorem lossKey_ofIdx_ne {n : Serial} {k : Key} {i : Circ} (fn : k.fn ≠ some (.ofIdx i)) : k ≠ lossKey n (.ofIdx i) :=
  fun same => fn (same ▸ rfl)

/-! ## The steps -/

theorem clearCircuit_some (n : Serial) (before now : Report) (s : State) (c : Circ) :
    clearCircuit n (some before) now s c =
      match before.keyAt n c with
      | none => s
      | some k => if now.keyAt n c = some k then s else s.clear k := by
  unfold clearCircuit
  rw [reportKey_some, reportKey_some]
  cases before.keyAt n c with
  | none => rfl
  | some k => cases now.keyAt n c <;> rfl

/-- R186, R188: the second pass at circuit c, by the keys that the two reports show there. -/
theorem confirmCircuit_eq (n : Serial) (prev : Option Report) (now : Report) (s : State) (c : Circ) :
    confirmCircuit n prev now s c =
      match now.keyAt n c with
      | none => s
      | some k =>
        if prev.bind (·.keyAt n c) = some k then
          s.detail k fun d => if k.kind = .lampPartial then { d with m := now.circuits[c].m } else d
        else s.confirm k (circuitDetails k.kind now.circuits[c].m) none := by
  unfold confirmCircuit
  have before : (reportKey n prev c).map Prod.fst = prev.bind (·.keyAt n c) := by
    cases prev with
    | none => rfl
    | some x =>
      rw [reportKey_some, Option.map_map]
      exact Option.map_id'
  rw [reportKey_some, before]
  cases now.keyAt n c <;> rfl

theorem clearCircuit_grows (n : Serial) (prev : Option Report) (now : Report) : Grows 0 (clearCircuit n prev now) := by
  intro b m s c w
  cases prev with
  | none => exact w
  | some before =>
    rw [clearCircuit_some]
    split
    · exact w
    · split
      · exact w
      · exact w.clear _

theorem clearLoss_grows (n : Serial) (prev : Option Report) (now : Report) : Grows 0 (clearLoss n prev now) := by
  intro b m s c w
  unfold clearLoss
  dsimp only
  split
  · exact w.clear _
  · have cleared := w.clear (circuitKey n .noSupply 0 (.ofIdx c))
    exact ⟨cleared.only.trans (mapEntries_listOnly _ _),
      fun h => mapEntry_listLaw (cleared.law h) _ (fun _ => rfl) fun _ a b => ⟨a, b⟩,
      (List.length_map _).le.trans cleared.length⟩
  all_goals exact w

theorem confirmCircuit_grows (n : Serial) (prev : Option Report) (now : Report) :
    Grows 1 (confirmCircuit n prev now) := by
  intro b m s c w
  rw [confirmCircuit_eq]
  split
  · exact w.mono (Nat.le_succ m)
  · split
    · exact (w.detail _ _).mono (Nat.le_succ m)
    · exact w.confirm _ _ _

theorem confirmLoss_grows (n : Serial) (prev : Option Report) (now : Report) : Grows 1 (confirmLoss n prev now) := by
  intro b m s c w
  unfold confirmLoss
  dsimp only
  repeat' split
  · exact w.mono (Nat.le_succ m)
  · exact w.mono (Nat.le_succ m)
  · exact (w.detail _ _).mono (Nat.le_succ m)
  · exact w.confirm _ _ _
  · exact w.confirm _ _ _

theorem keyAt_ne {x : Report} {n : Serial} {c : Circ} {j k : Key} (shown : x.keyAt n c = some j)
    (other : k.circuit ≠ some c) : k ≠ j := by
  obtain ⟨y, -, -, rfl⟩ := keyAt_eq.1 shown
  exact fun same => other (same ▸ rfl)

theorem clearCircuit_other {n : Serial} {prev : Option Report} {now : Report} {k : Key} {c : Circ}
    (other : k.circuit ≠ some c) : LeavesAlone (clearCircuit n prev now) k c := by
  intro s _
  cases prev with
  | none => rfl
  | some before =>
    rw [clearCircuit_some]
    split
    · rfl
    · next shown =>
      split
      · rfl
      · exact clear_entryOf_other s (keyAt_ne shown other)

theorem confirmCircuit_other {n : Serial} {prev : Option Report} {now : Report} {k : Key} {c : Circ}
    (other : k.circuit ≠ some c) : LeavesAlone (confirmCircuit n prev now) k c := by
  intro s room
  rw [confirmCircuit_eq]
  split
  · rfl
  · next shown =>
    split
    · rw [detail_entryOf, if_neg (keyAt_ne shown other)]
    · exact confirm_entryOf_other (keyAt_ne shown other) room _ _

theorem clearLoss_other {n : Serial} {prev : Option Report} {now : Report} {k : Key} {i : Circ}
    (other : k ≠ lossKey n (.ofIdx i)) : LeavesAlone (clearLoss n prev now) k i := by
  intro s _
  unfold clearLoss
  dsimp only
  rw [circuitKey_loss]
  split
  · exact clear_entryOf_other s other
  · exact ((mapEntry_entryOf _ _
      (g := fun e => { e with details := { e.details with attribution := some .shadowed, front := none } })
      (fun _ => rfl) k).trans (if_neg other)).trans (clear_entryOf_other s other)
  all_goals rfl

theorem confirmLoss_other {n : Serial} {prev : Option Report} {now : Report} {k : Key} {i : Circ}
    (other : k ≠ lossKey n (.ofIdx i)) : LeavesAlone (confirmLoss n prev now) k i := by
  intro s room
  unfold confirmLoss
  dsimp only
  rw [circuitKey_loss]
  repeat' split
  · rfl
  · rfl
  · rw [detail_entryOf, if_neg other]
  · exact confirm_entryOf_other other room _ _
  · exact confirm_entryOf_other other room _ _

/-! ## The passes together -/

theorem comparePasses_within {b s : State} {m : Nat} (w : Within b m s) (n : Serial) (prev : Option Report)
    (now : Report) : Within b (m + 16) (s.comparePasses n prev now) :=
  foldl_within (confirmLoss_grows n prev now) allCirc (foldl_within (confirmCircuit_grows n prev now) allCirc
    (foldl_within (clearLoss_grows n prev now) allCirc (foldl_within (clearCircuit_grows n prev now) allCirc w)))

/-- R186: the entry of a key with circuit c is followed through the two steps of circuit c. -/
theorem comparePasses_circuit {b s : State} (w : Within b 16 s) (n : Serial) (prev : Option Report) (now : Report)
    {k : Key} {c : Circ} (own : k.circuit = some c) :
    ∃ u v, Within b 31 u ∧ Within b 31 v ∧ u.faults.entryOf k = s.faults.entryOf k ∧
      v.faults.entryOf k = (clearCircuit n prev now u c).faults.entryOf k ∧
      (s.comparePasses n prev now).faults.entryOf k = (confirmCircuit n prev now v c).faults.entryOf k := by
  have others (a : Circ) (ne : a ≠ c) : k.circuit ≠ some a := by
    rw [own]
    exact fun same => ne (Option.some.inj same).symm
  have noLoss (i : Circ) : k ≠ lossKey n (.ofIdx i) := by
    rintro rfl
    cases own
  obtain ⟨u, wu, stoodU, cleared⟩ := foldl_alone (clearCircuit_grows n prev now)
    (fun a ne => clearCircuit_other (others a ne)) w (by decide)
  have w1 := foldl_within (clearCircuit_grows n prev now) allCirc w
  have losses := foldl_entryOf (clearLoss_grows n prev now) (l := allCirc)
    (fun i _ => clearLoss_other (noLoss i)) w1 (by decide)
  have w2 := foldl_within (clearLoss_grows n prev now) allCirc w1
  obtain ⟨v, wv, stoodV, confirmed⟩ := foldl_alone (confirmCircuit_grows n prev now)
    (fun a ne => confirmCircuit_other (others a ne)) w2 (by decide)
  have w3 := foldl_within (confirmCircuit_grows n prev now) allCirc w2
  refine ⟨u, v, wu, wv, stoodU, stoodV.trans (losses.trans cleared), ?_⟩
  exact (foldl_entryOf (confirmLoss_grows n prev now) (l := allCirc)
    (fun i _ => confirmLoss_other (noLoss i)) w3 (by decide)).trans confirmed

/-- R187: the entry of a key without a circuit is followed through the two steps of its function. -/
theorem comparePasses_loss {b s : State} (w : Within b 16 s) (n : Serial) (prev : Option Report) (now : Report)
    (f : LampFn) :
    ∃ u v, Within b 31 u ∧ Within b 31 v ∧ u.faults.entryOf (lossKey n f) = s.faults.entryOf (lossKey n f) ∧
      v.faults.entryOf (lossKey n f) = (clearLoss n prev now u f.idx).faults.entryOf (lossKey n f) ∧
      (s.comparePasses n prev now).faults.entryOf (lossKey n f) =
        (confirmLoss n prev now v f.idx).faults.entryOf (lossKey n f) := by
  have others (i : Circ) (ne : i ≠ f.idx) : lossKey n f ≠ lossKey n (.ofIdx i) := by
    refine lossKey_ofIdx_ne fun same => ne ?_
    have eq : f = .ofIdx i := Option.some.inj same
    rw [eq, idx_ofIdx]
  have noCircuit (c : Circ) : (lossKey n f).circuit ≠ some c := nofun
  have cleared := foldl_entryOf (clearCircuit_grows n prev now) (l := allCirc)
    (fun c _ => clearCircuit_other (noCircuit c)) w (by decide)
  have w1 := foldl_within (clearCircuit_grows n prev now) allCirc w
  obtain ⟨u, wu, stoodU, lossCleared⟩ := foldl_alone (clearLoss_grows n prev now)
    (fun a ne => clearLoss_other (others a ne)) w1 (by decide)
  have w2 := foldl_within (clearLoss_grows n prev now) allCirc w1
  have confirmed := foldl_entryOf (confirmCircuit_grows n prev now) (l := allCirc)
    (fun c _ => confirmCircuit_other (noCircuit c)) w2 (by decide)
  have w3 := foldl_within (confirmCircuit_grows n prev now) allCirc w2
  obtain ⟨v, wv, stoodV, lossConfirmed⟩ := foldl_alone (confirmLoss_grows n prev now)
    (fun a ne => confirmLoss_other (others a ne)) w3 (by decide)
  exact ⟨u, v, wu, wv, stoodU.trans cleared, stoodV.trans (confirmed.trans lossCleared), lossConfirmed⟩

/-- R186, R187: a key that is neither of a circuit nor of a loss is left. -/
theorem comparePasses_spares {b s : State} (w : Within b 16 s) (n : Serial) (prev : Option Report) (now : Report)
    {k : Key} (circuit : k.circuit = none) (loss : ∀ f, k ≠ lossKey n f) :
    (s.comparePasses n prev now).faults.entryOf k = s.faults.entryOf k := by
  have noCircuit (c : Circ) : k.circuit ≠ some c := by simp [circuit]
  have w1 := foldl_within (clearCircuit_grows n prev now) allCirc w
  have w2 := foldl_within (clearLoss_grows n prev now) allCirc w1
  have w3 := foldl_within (confirmCircuit_grows n prev now) allCirc w2
  calc (s.comparePasses n prev now).faults.entryOf k
    _ = (allCirc.foldl (confirmCircuit n prev now) (allCirc.foldl (clearLoss n prev now)
          (allCirc.foldl (clearCircuit n prev now) s))).faults.entryOf k :=
        foldl_entryOf (confirmLoss_grows n prev now) (fun i _ => confirmLoss_other (loss _)) w3 (by decide)
    _ = (allCirc.foldl (clearLoss n prev now) (allCirc.foldl (clearCircuit n prev now) s)).faults.entryOf k :=
        foldl_entryOf (confirmCircuit_grows n prev now) (fun c _ => confirmCircuit_other (noCircuit c)) w2 (by decide)
    _ = (allCirc.foldl (clearCircuit n prev now) s).faults.entryOf k :=
        foldl_entryOf (clearLoss_grows n prev now) (fun i _ => clearLoss_other (loss _)) w1 (by decide)
    _ = s.faults.entryOf k :=
        foldl_entryOf (clearCircuit_grows n prev now) (fun c _ => clearCircuit_other (noCircuit c)) w (by decide)

end Sys2Proof.Machine
end

section
/-! SUPPORT. A report that is compared with the one before it (R186 to R188, R190): what its circuits and its losses
make of their entries. -/

namespace Sys2Proof.Machine

/-! ## Decoded reports (R216) -/

theorem eightM_get {α : Type} {f : Circ → Option α} {v : Vector α 8} (h : eightM f = some v) (c : Circ) :
    f c = some v[c] := by
  unfold eightM at h
  split at h
  · next h0 h1 h2 h3 h4 h5 h6 h7 =>
    cases h
    fin_cases c
    · exact h0
    · exact h1
    · exact h2
    · exact h3
    · exact h4
    · exact h5
    · exact h6
    · exact h7
  · cases h

/-- R216: a STATUS carries neither a RANK CLASH nor a UNIT SILENT. -/
theorem kindOfCode_carried {v : BitVec 3} {k : FaultKind} (h : kindOfCode v = some k) :
    k ≠ .rankClash ∧ k ≠ .unitSilent := by
  revert v k
  decide

theorem ofWord_confirmed {w : BitVec 32} {l : BitVec 2} {x : CircuitReport} (h : CircuitReport.ofWord w l = some x) :
    x.confirmed = kindOfCode (w.extractLsb' 7 3) := by
  unfold CircuitReport.ofWord at h
  split at h
  · cases h
  · split at h
    · cases h
    · cases h
      rfl

/-- R216: so does no key of a decoded report. -/
theorem keyAt_carried {p : BitVec 288} {x : Report} (decoded : Report.decode p = some x) {n : Serial} {c : Circ}
    {k : Key} (shown : x.keyAt n c = some k) : k.kind ≠ .rankClash ∧ k.kind ≠ .unitSilent := by
  obtain ⟨cs, read, rfl⟩ := Option.map_eq_some_iff.1 decoded
  obtain ⟨y, confirmed, -, rfl⟩ := keyAt_eq.1 shown
  exact kindOfCode_carried ((ofWord_confirmed (eightM_get read c)).symm.trans confirmed)

/-! ## Losses (R187) -/

/-- R187: circuit c of F with NO SUPPLY confirmed. -/
def Report.lostAt (x : Report) (f : LampFn) (c : Circ) : Prop :=
  x.circuits[c].fn = f ∧ x.circuits[c].confirmed = some .noSupply

/-- R187: one whose loss is not SHADOWED. -/
def Report.openAt (x : Report) (f : LampFn) (c : Circ) : Prop :=
  x.lostAt f c ∧ x.circuits[c].attribution ≠ some .shadowed

theorem lost_iff (x : Report) (f : LampFn) (c : Circ) : x.circuits[c].lost f = true ↔ x.lostAt f c := by
  simp [CircuitReport.lost, Report.lostAt]

theorem open_iff (x : Report) (f : LampFn) (c : Circ) :
    (x.circuits[c].lost f && x.circuits[c].attribution != some .shadowed) = true ↔ x.openAt f c := by
  rw [Bool.and_eq_true, lost_iff, bne_iff_ne]
  rfl

theorem lost_any (x : Report) (f : LampFn) :
    (allCirc.any fun c => x.circuits[c].lost f) = true ↔ ∃ c, x.lostAt f c := by
  rw [List.any_eq_true]
  exact ⟨fun ⟨c, _, h⟩ => ⟨c, (lost_iff x f c).1 h⟩, fun ⟨c, h⟩ => ⟨c, mem_allCirc c, (lost_iff x f c).2 h⟩⟩

/-- R187: no circuit lost. -/
theorem loss_none {x : Report} {f : LampFn} (calm : ∀ c, ¬ x.lostAt f c) : x.loss f = .none :=
  if_neg fun any => by
    obtain ⟨c, lost⟩ := (lost_any x f).1 any
    exact calm c lost

/-- R187: circuits lost, all of them SHADOWED. -/
theorem loss_shadowed {x : Report} {f : LampFn} {c : Circ} (lost : x.lostAt f c) (closed : ∀ d, ¬ x.openAt f d) :
    x.loss f = .shadowed := by
  have none_ : (allCirc.find? fun c => x.circuits[c].lost f && x.circuits[c].attribution != some .shadowed) = none :=
    List.find?_eq_none.2 fun d _ h => closed d ((open_iff x f d).1 h)
  rw [Report.loss, if_pos ((lost_any x f).2 ⟨c, lost⟩), none_]

/-- R187: the lowest circuit whose loss is not SHADOWED gives the loss its attribution and its front. -/
theorem loss_entered {x : Report} {f : LampFn} {c : Circ} (leads : x.openAt f c) (first : ∀ d, d < c → ¬ x.openAt f d) :
    x.loss f = .entered x.circuits[c].attribution x.circuits[c].front := by
  have found : (allCirc.find? fun c => x.circuits[c].lost f && x.circuits[c].attribution != some .shadowed) = some c :=
    (find_allCirc _ c).2 ⟨(open_iff x f c).2 leads, fun d less h => first d less ((open_iff x f d).1 h)⟩
  rw [Report.loss, if_pos ((lost_any x f).2 ⟨c, leads.1⟩), found]

theorem loss_closed {x : Report} {f : LampFn} (closed : ∀ d, ¬ x.openAt f d) :
    x.loss f = .none ∨ x.loss f = .shadowed := by
  by_cases calm : ∀ c, ¬ x.lostAt f c
  · exact .inl (loss_none calm)
  · obtain ⟨c, lost⟩ := not_forall_not.1 calm
    exact .inr (loss_shadowed lost closed)

theorem loss_open {x : Report} {f : LampFn} {d : Circ} (opened : x.openAt f d) : ∃ a m, x.loss f = .entered a m := by
  classical
  obtain ⟨c, leads, first⟩ := WellFounded.has_min (wellFounded_lt (α := Circ)) {c | x.openAt f c} ⟨d, opened⟩
  exact ⟨_, _, loss_entered leads fun e less h => first e h less⟩

/-- R187: a loss is entered exactly where a circuit's loss is not SHADOWED. -/
theorem loss_entered_iff (x : Report) (f : LampFn) : (∃ a m, x.loss f = .entered a m) ↔ ∃ c, x.openAt f c := by
  refine ⟨fun ⟨a, m, entered⟩ => ?_, fun ⟨c, opened⟩ => loss_open opened⟩
  by_contra closed
  rcases loss_closed (not_exists.1 closed) with eq | eq <;> rw [eq] at entered <;> cases entered

theorem byteOfBits_getLsbD (a b c d e f g h : Bool) (i : Circ) :
    (byteOfBits a b c d e f g h).getLsbD i.val = #v[a, b, c, d, e, f, g, h][i] := by
  revert a b c d e f g h i
  decide +kernel

theorem byteOfBits_get (g : Circ → Bool) (d : Circ) :
    (byteOfBits (g 0) (g 1) (g 2) (g 3) (g 4) (g 5) (g 6) (g 7)).getLsbD d.val = g d := by
  rw [byteOfBits_getLsbD]
  fin_cases d <;> rfl

/-- R187: the mask of F holds the circuits lost. -/
theorem lossMask_get (x : Report) (f : LampFn) (d : Circ) : (x.lossMask f).getLsbD d.val = true ↔ x.lostAt f d := by
  rw [← lost_iff]
  exact Bool.eq_iff_iff.1 (byteOfBits_get (fun c => x.circuits[c].lost f) d)

/-- R178, R187: the details of an entered loss. -/
def Report.lossDetails (x : Report) (f : LampFn) (a : Option Attribution) (front : Option Nat) : Details :=
  { Details.empty with attribution := a, front := front, mask := x.lossMask f }

/-! ## One key compared -/

section
variable {b s : State} (w : Within b 16 s) {n : Serial} {prev : Option Report} {now : Report} {k : Key} {c : Circ}
include w

/-- R188: a fault that the report does not show as the one before did is cleared. -/
theorem compare_gone {before : Report} (was : before.keyAt n c = some k) (not_ : now.keyAt n c ≠ some k) :
    ∃ u, Within b 31 u ∧ u.faults.entryOf k = s.faults.entryOf k ∧
      (s.comparePasses n (some before) now).faults.entryOf k = (u.clear k).faults.entryOf k := by
  obtain ⟨y, -, -, own⟩ := keyAt_eq.1 was
  obtain ⟨u, v, wu, wv, stood, cleared, confirmed⟩ :=
    comparePasses_circuit w n (some before) now (k := k) (c := c) (own ▸ rfl)
  refine ⟨u, wu, stood, ?_⟩
  rw [clearCircuit_some, was] at cleared
  dsimp only at cleared
  rw [if_neg not_] at cleared
  rw [confirmed, confirmCircuit_eq, ← cleared]
  cases shown : now.keyAt n c with
  | none => rfl
  | some j =>
    have other : k ≠ j := fun same => not_ (same ▸ shown)
    have differs : (some before).bind (·.keyAt n c) ≠ some j := by
      rw [Option.bind_some, was]
      exact fun same => other (Option.some.inj same)
    dsimp only
    rw [if_neg differs]
    exact confirm_entryOf_other other (Nat.lt_succ_of_le wv.length) _ _

/-- R188, R189: a fault that the report before did not show is confirmed. -/
theorem compare_new (shown : now.keyAt n c = some k) (was : prev.bind (·.keyAt n c) ≠ some k) :
    ∃ v, Within b 31 v ∧ v.faults.entryOf k = s.faults.entryOf k ∧ (s.comparePasses n prev now).faults.entryOf k =
      (v.confirm k (circuitDetails k.kind now.circuits[c].m) none).faults.entryOf k := by
  obtain ⟨y, -, -, own⟩ := keyAt_eq.1 shown
  obtain ⟨u, v, wu, wv, stood, cleared, confirmed⟩ := comparePasses_circuit w n prev now (k := k) (c := c) (own ▸ rfl)
  refine ⟨v, wv, ?_, ?_⟩
  · refine cleared.trans (Eq.trans ?_ stood)
    cases prev with
    | none => rfl
    | some before =>
      rw [clearCircuit_some]
      cases past : before.keyAt n c with
      | none => rfl
      | some j =>
        have other : k ≠ j := fun same => was (same ▸ past)
        dsimp only
        split
        · rfl
        · exact clear_entryOf_other u other
  · rw [confirmed, confirmCircuit_eq, shown]
    dsimp only
    rw [if_neg was]

/-- R188: a fault that stays is a change of detail. -/
theorem compare_stays {before : Report} (was : before.keyAt n c = some k) (shown : now.keyAt n c = some k) :
    (s.comparePasses n (some before) now).faults.entryOf k = (s.faults.entryOf k).map fun e =>
      if e.state.stands then { e with
        details := if k.kind = .lampPartial then { e.details with m := now.circuits[c].m } else e.details } else e := by
  obtain ⟨y, -, -, own⟩ := keyAt_eq.1 was
  obtain ⟨u, v, wu, wv, stood, cleared, confirmed⟩ :=
    comparePasses_circuit w n (some before) now (k := k) (c := c) (own ▸ rfl)
  rw [clearCircuit_some, was] at cleared
  dsimp only at cleared
  rw [if_pos shown] at cleared
  rw [confirmed, confirmCircuit_eq, shown]
  dsimp only
  rw [Option.bind_some, if_pos was, detail_entryOf, if_pos rfl, cleared, stood]

end

section
variable {b s : State} (w : Within b 16 s) {n : Serial} {prev : Option Report} {now : Report} {f : LampFn}
include w

/-- R187: the two steps of function F. -/
theorem compare_loss : ∃ u v, Within b 31 u ∧ Within b 31 v ∧
      u.faults.entryOf (lossKey n f) = s.faults.entryOf (lossKey n f) ∧
      v.faults.entryOf (lossKey n f) = (match lossOf prev f, now.loss f with
        | .entered _ _, .none => u.clear (lossKey n f)
        | .entered _ _, .shadowed => (u.clear (lossKey n f)).mapEntry (lossKey n f) fun e =>
          { e with details := { e.details with attribution := some .shadowed, front := none } }
        | _, _ => u).faults.entryOf (lossKey n f) ∧
      (s.comparePasses n prev now).faults.entryOf (lossKey n f) = (match lossOf prev f, now.loss f with
        | .entered _ _, .entered a m => v.detail (lossKey n f) fun _ => now.lossDetails f a m
        | _, .entered a m => v.confirm (lossKey n f) (now.lossDetails f a m) none
        | _, _ => v).faults.entryOf (lossKey n f) := by
  obtain ⟨u, v, wu, wv, stood, cleared, confirmed⟩ := comparePasses_loss w n prev now f
  refine ⟨u, v, wu, wv, stood, cleared.trans ?_, confirmed.trans ?_⟩
  · unfold clearLoss
    dsimp only
    rw [ofIdx_idx]
    cases lossOf prev f <;> cases now.loss f <;> rfl
  · unfold confirmLoss
    dsimp only
    rw [ofIdx_idx]
    cases now.loss f <;> cases lossOf prev f <;> rfl

/-- R188, R189: a loss that the report before did not enter is confirmed. -/
theorem compare_lossNew {a : Option Attribution} {m : Option Nat} (entered : now.loss f = .entered a m)
    (was : lossOf prev f = .none ∨ lossOf prev f = .shadowed) :
    ∃ v, Within b 31 v ∧ v.faults.entryOf (lossKey n f) = s.faults.entryOf (lossKey n f) ∧
      (s.comparePasses n prev now).faults.entryOf (lossKey n f) =
        (v.confirm (lossKey n f) (now.lossDetails f a m) none).faults.entryOf (lossKey n f) := by
  obtain ⟨u, v, wu, wv, stood, cleared, confirmed⟩ := compare_loss w (n := n) (prev := prev) (now := now) (f := f)
  rw [entered] at cleared confirmed
  rcases was with was | was <;> rw [was] at cleared confirmed
  · exact ⟨v, wv, cleared.trans stood, confirmed⟩
  · exact ⟨v, wv, cleared.trans stood, confirmed⟩

/-- R188: a loss that stays entered is a change of detail. -/
theorem compare_lossStays {a a' : Option Attribution} {m m' : Option Nat} (was : lossOf prev f = .entered a' m')
    (entered : now.loss f = .entered a m) :
    (s.comparePasses n prev now).faults.entryOf (lossKey n f) = (s.faults.entryOf (lossKey n f)).map fun e =>
      if e.state.stands then { e with details := now.lossDetails f a m } else e := by
  obtain ⟨u, v, wu, wv, stood, cleared, confirmed⟩ := compare_loss w (n := n) (prev := prev) (now := now) (f := f)
  rw [entered, was] at cleared confirmed
  dsimp only at cleared confirmed
  rw [confirmed, detail_entryOf, if_pos rfl, cleared, stood]

/-- R188: a loss that ended is cleared. -/
theorem compare_lossGone {a : Option Attribution} {m : Option Nat} (was : lossOf prev f = .entered a m)
    (gone : now.loss f = .none) : ∃ u, Within b 31 u ∧
      u.faults.entryOf (lossKey n f) = s.faults.entryOf (lossKey n f) ∧
      (s.comparePasses n prev now).faults.entryOf (lossKey n f) =
        (u.clear (lossKey n f)).faults.entryOf (lossKey n f) := by
  obtain ⟨u, v, wu, wv, stood, cleared, confirmed⟩ := compare_loss w (n := n) (prev := prev) (now := now) (f := f)
  rw [gone, was] at cleared confirmed
  exact ⟨u, wu, stood, confirmed.trans cleared⟩

/-- R188: a loss that became SHADOWED is cleared and re-attributed (DEDUCED, log entry 24). -/
theorem compare_lossShadowed {a : Option Attribution} {m : Option Nat} (was : lossOf prev f = .entered a m)
    (shadowed : now.loss f = .shadowed) : ∃ u, Within b 31 u ∧
      u.faults.entryOf (lossKey n f) = s.faults.entryOf (lossKey n f) ∧
      (s.comparePasses n prev now).faults.entryOf (lossKey n f) =
        ((u.clear (lossKey n f)).faults.entryOf (lossKey n f)).map fun e =>
          { e with details := { e.details with attribution := some .shadowed, front := none } } := by
  obtain ⟨u, v, wu, wv, stood, cleared, confirmed⟩ := compare_loss w (n := n) (prev := prev) (now := now) (f := f)
  rw [shadowed, was] at cleared confirmed
  refine ⟨u, wu, stood, confirmed.trans (cleared.trans ?_)⟩
  exact (mapEntry_entryOf _ _
    (g := fun e => { e with details := { e.details with attribution := some .shadowed, front := none } })
    (fun _ => rfl) _).trans (if_pos rfl)

/-- R188: a loss that neither report enters is left. -/
theorem compare_lossLeft (was : lossOf prev f = .none ∨ lossOf prev f = .shadowed)
    (is_ : now.loss f = .none ∨ now.loss f = .shadowed) :
    (s.comparePasses n prev now).faults.entryOf (lossKey n f) = s.faults.entryOf (lossKey n f) := by
  obtain ⟨u, v, wu, wv, stood, cleared, confirmed⟩ := compare_loss w (n := n) (prev := prev) (now := now) (f := f)
  rcases was with was | was <;> rcases is_ with eq | eq <;> rw [eq, was] at cleared confirmed <;>
    exact confirmed.trans (cleared.trans stood)

end

end Sys2Proof.Machine
end

section
/-! SUPPORT. A STATUS as an input of the fault list (R186 to R190, R193): what is confirmed for a ranked peer, what a
station that joins or returns finds, and the input that changes nothing. -/

namespace Sys2Proof.Machine

theorem ListOnly.roster {s t : State} (h : ListOnly s t) : t.roster = s.roster := by rw [h]

theorem ListOnly.learner {s t : State} (h : ListOnly s t) : t.learner = s.learner := by rw [h]

/-! ## Confirmations for a ranked peer -/

theorem ListOnly.ranksFor {s t : State} (h : ListOnly s t) (k : Key) (claim : Option Rank) :
    t.ranksFor k claim = s.ranksFor k claim := by
  unfold State.ranksFor
  rw [h.cfg, h.roster]

theorem ListOnly.newEntry {s t : State} (h : ListOnly s t) (k : Key) (d : Details) (claim : Option Rank) :
    t.newEntry k d claim = s.newEntry k d claim := by
  unfold State.newEntry
  rw [h.ranksFor, h.trainSeconds]

/-- R179: both ranks of a peer's entry are its slot. -/
theorem ranksFor_peer {b : State} {k : Key} (peer : k.serial ≠ b.cfg.serial) (clash : k.kind ≠ .rankClash)
    (silent : k.kind ≠ .unitSilent) (claim : Option Rank) :
    b.ranksFor k claim = (b.roster.slotOf k.serial, b.roster.slotOf k.serial) := by
  rw [State.ranksFor, if_neg clash, if_neg peer, if_neg silent]

/-- R178, R181: what a confirmation makes of the entry of its key. -/
def State.confirmedEntry (b : State) (k : Key) (d : Details) (claim : Option Rank) : Option Entry → Entry
  | none => b.newEntry k d claim
  | some e =>
    if e.state = .cleared then e.reactivate d (b.ranksFor k claim) else { e with state := .active, details := d }

theorem Within.confirm_entryOf {b v : State} (w : Within b 31 v) (k : Key) (d : Details) (claim : Option Rank) :
    (v.confirm k d claim).faults.entryOf k = some (b.confirmedEntry k d claim (v.faults.entryOf k)) := by
  cases found : v.faults.entryOf k with
  | none =>
    rw [confirm_entryOf_new found (Nat.lt_succ_of_le w.length), w.only.newEntry]
    rfl
  | some e =>
    by_cases cleared : e.state = .cleared
    · rw [confirm_entryOf_cleared found cleared, w.only.ranksFor, State.confirmedEntry, if_pos cleared]
    · rw [confirm_entryOf_standing found cleared, State.confirmedEntry, if_neg cleared]

/-! ## Every extent recomputed (R193) -/

/-- R193: recomputing changes no extent. -/
def State.Settled (s : State) : Prop := s.extents = s

theorem extentOf_congr {s t : State} (faults : t.faults = s.faults) (roster : t.roster = s.roster) (e : Entry) :
    t.extentOf e = s.extentOf e := by
  unfold State.extentOf State.shadowsBehind
  rw [faults, roster]

theorem extents_eq (s : State) :
    s.extents = { s with faults := { s.faults with
      entries := s.faults.entries.map fun e => { e with extent := s.extentOf e } } } := rfl

theorem State.Settled.congr {s t : State} (h : s.Settled) (faults : t.faults = s.faults)
    (roster : t.roster = s.roster) : t.Settled := by
  have same : s.extents.faults = s.faults := congrArg State.faults h
  have entries : t.extents.faults = t.faults := by
    rw [extents_eq] at same ⊢
    rw [faults]
    simpa only [extentOf_congr faults roster] using same
  rw [State.Settled, extents_eq] at *
  exact (congrArg (fun l => { t with faults := l }) entries)

theorem extents_anchorBelow (s : State) (f : LampFn) (x : Rank) :
    s.extents.faults.anchorBelow f x = s.faults.anchorBelow f x := by
  unfold FaultList.anchorBelow
  refine congrArg (List.find? · _) (funext fun a => ?_)
  show List.any (List.map _ _) _ = _
  rw [List.any_map]
  rfl

theorem extents_extentOf (s : State) (e : Entry) (x : Nat) :
    s.extents.extentOf { e with extent := x } = s.extentOf e := by
  unfold State.extentOf State.shadowsBehind
  simp only [extents_anchorBelow]
  rfl

theorem extents_settled (s : State) : s.extents.Settled := by
  rw [State.Settled, extents_eq s.extents]
  refine congrArg (fun l => { s.extents with faults := { s.faults with entries := l } }) ?_
  show List.map _ (List.map _ _) = _
  rw [List.map_map]
  exact List.map_congr_left fun e _ => congrArg (fun x => { e with extent := x }) (extents_extentOf s e _)

theorem settleList_faults (s : State) : s.settleList.faults = s.extents.faults := by
  unfold State.settleList
  rcases deriveWarn_cases s.extents with ⟨_, e⟩ | ⟨_, e⟩ <;> rw [e]

theorem settleList_settled (s : State) : s.settleList.Settled :=
  (extents_settled s).congr (settleList_faults s) (by simp; rfl)

theorem rankClashInput_settled (s : State) (n : Serial) (begins : Bool) (claim : Option Rank) :
    (s.rankClashInput n begins claim).Settled := settleList_settled _

theorem statusInput_settled (s : State) (n : Serial) (prev : Option Report) (rep : Report) (out : Placement) :
    (s.statusInput n prev rep out).Settled := by
  unfold State.statusInput
  split <;> exact settleList_settled _

theorem clashChange_settled {s : State} (h : s.Settled) (before : Roster) (n : Serial) (claim : Option Rank) :
    (s.clashChange before n claim).Settled := by
  unfold State.clashChange
  split
  · exact rankClashInput_settled _ _ _ _
  · exact rankClashInput_settled _ _ _ _
  all_goals exact h

theorem listStatus_settled (s : State) (before : Roster) (h : RxHeader) (prev : Option Report) (rep : Report)
    (out : Placement) : (s.listStatus before h prev rep out).Settled := by
  unfold State.listStatus
  split
  · exact statusInput_settled _ _ _ _ _
  · dsimp only
    split
    · exact statusInput_settled _ _ _ _ _
    · exact clashChange_settled (statusInput_settled _ _ _ _ _) _ _ _

/-! ## A comparison that changes nothing (R190) -/

/-- R181, R182: from s to t the entries keep all but details and extents, and no event is raised. -/
structure Quiet (s t : State) : Prop where
  only : ListOnly s t
  events : t.events = s.events
  flags : t.flags = s.flags
  kept : t.faults.entries.map (fun x => (x.key, x.severity, x.state, x.acked, x.occurrences, x.first, x.rankCur)) =
    s.faults.entries.map fun x => (x.key, x.severity, x.state, x.acked, x.occurrences, x.first, x.rankCur)

theorem Quiet.refl (s : State) : Quiet s s := ⟨.refl s, rfl, rfl, rfl⟩

theorem Quiet.trans {s t u : State} (h : Quiet s t) (g : Quiet t u) : Quiet s u :=
  ⟨h.only.trans g.only, g.events.trans h.events, g.flags.trans h.flags, g.kept.trans h.kept⟩

theorem Quiet.foldl {f : State → Circ → State} (h : ∀ s c, Quiet s (f s c)) (l : List Circ) (s : State) :
    Quiet s (l.foldl f s) := by
  induction l generalizing s with
  | nil => exact .refl s
  | cons c l ih => exact (h s c).trans (ih _)

theorem mapEntries_quiet (s : State) {g : Entry → Entry}
    (kept : ∀ e, ∃ d x, g e = { e with details := d, extent := x }) : Quiet s (s.mapEntries g) := by
  refine ⟨mapEntries_listOnly s g, rfl, rfl, ?_⟩
  show List.map _ (List.map _ _) = _
  rw [List.map_map]
  refine List.map_congr_left fun e _ => ?_
  obtain ⟨d, x, eq⟩ := kept e
  simp only [Function.comp, eq]

theorem detail_quiet (s : State) (k : Key) (g : Details → Details) : Quiet s (s.detail k g) := by
  refine mapEntries_quiet s fun e => ?_
  split
  · dsimp only
    split
    · exact ⟨_, _, rfl⟩
    · exact ⟨_, _, rfl⟩
  · exact ⟨_, _, rfl⟩

theorem settleList_quiet (s : State) : Quiet s s.settleList :=
  ⟨settleList_listOnly s, settleList_events s, settleList_flags s, by
    rw [settleList_faults]
    exact (mapEntries_quiet s fun e => ⟨_, _, rfl⟩).kept⟩

/-- R190: a report compared with itself is a change of details. -/
theorem comparePasses_same (s : State) (n : Serial) (rep : Report) :
    Quiet s (s.comparePasses n (some rep) rep) := by
  refine (((Quiet.foldl (fun s c => ?_) allCirc s).trans (.foldl (fun s i => ?_) _ _)).trans
    (.foldl (fun s c => ?_) _ _)).trans (.foldl (fun s i => ?_) _ _)
  · rw [clearCircuit_some]
    split
    · exact .refl s
    · next shown => rw [if_pos shown]; exact .refl s
  · unfold clearLoss lossOf
    dsimp only
    cases rep.loss (.ofIdx i) <;> exact .refl s
  · rw [confirmCircuit_eq]
    split
    · exact .refl s
    · next shown => rw [Option.bind_some, if_pos shown]; exact detail_quiet _ _ _
  · unfold confirmLoss lossOf
    dsimp only
    cases rep.loss (.ofIdx i) with
    | none => exact .refl s
    | shadowed => exact .refl s
    | entered a m => exact detail_quiet _ _ _

/-- R179: the ranks set, apart from them nothing changes. -/
theorem setRanks_kept (s : State) (n : Serial) (r : Option Rank) :
    (s.setRanks n r).faults.entries.map (fun x => (x.key, x.severity, x.state, x.acked, x.occurrences, x.first)) =
      s.faults.entries.map fun x => (x.key, x.severity, x.state, x.acked, x.occurrences, x.first) := by
  show List.map _ (List.map _ _) = _
  rw [List.map_map]
  refine List.map_congr_left fun e _ => ?_
  by_cases own : e.key.serial = n <;> simp [own]

theorem Quiet.kept_six {s t : State} (q : Quiet s t) :
    t.faults.entries.map (fun x => (x.key, x.severity, x.state, x.acked, x.occurrences, x.first)) =
      s.faults.entries.map fun x => (x.key, x.severity, x.state, x.acked, x.occurrences, x.first) := by
  have short := congrArg (List.map fun y : Key × Severity × EntryState × Bool × Nat × BitVec 32 × Option Rank =>
    (y.1, y.2.1, y.2.2.1, y.2.2.2.1, y.2.2.2.2.1, y.2.2.2.2.2.1)) q.kept
  rwa [List.map_map, List.map_map] at short

theorem Quiet.mem {s t : State} (q : Quiet s t) {e : Entry} (listed : e ∈ t.faults.entries) :
    ∃ x ∈ s.faults.entries, x.key = e.key ∧ x.rankCur = e.rankCur := by
  have there := List.mem_map_of_mem
    (f := fun x : Entry => (x.key, x.severity, x.state, x.acked, x.occurrences, x.first, x.rankCur)) listed
  rw [q.kept] at there
  obtain ⟨x, stood, eq⟩ := List.mem_map.1 there
  simp only [Prod.mk.injEq] at eq
  obtain ⟨key, -, -, -, -, -, rank⟩ := eq
  exact ⟨x, stood, key, rank⟩

/-- R190: a STATUS that repeats the last report. -/
theorem hearStation_same (s : State) (n : Serial) (rep : Report) :
    Quiet (s.setRanks n (s.roster.slotOf n)) (s.hearStation n (some rep) rep).settleList :=
  (comparePasses_same _ n rep).trans (settleList_quiet _)

/-! ## A station that joins or returns (R189) -/

/-- R189, steps 1 and 2: STATION JOINED, and UNIT SILENT cleared where it is ACTIVE. -/
def State.returned (s : State) (n : Serial) : State :=
  let s := s.raise (.stationJoined n)
  if (s.faults.entryOf (stationKey n .unitSilent)).map Entry.state = some .active then
    s.clear (stationKey n .unitSilent) else s

/-- R179, R189: with the current rank of its entries. -/
def State.ranked (s : State) (n : Serial) : State := (s.returned n).setRanks n ((s.returned n).roster.slotOf n)

theorem joinStation_eq (s : State) (n : Serial) (now : Report) : s.joinStation n now =
    (((s.ranked n).comparePasses n none now).faults.unresolved n (now.keys n)).foldl State.clear
      ((s.ranked n).comparePasses n none now) := rfl

theorem returned_within {b s : State} {m : Nat} (w : Within b m s) (n : Serial) : Within b m (s.returned n) := by
  unfold State.returned
  dsimp only
  split
  · exact (w.raise _).clear _
  · exact w.raise _

theorem ranked_within {b s : State} {m : Nat} (w : Within b m s) (n : Serial) : Within b m (s.ranked n) :=
  (returned_within w n).setRanks n _

theorem returned_only (s : State) (n : Serial) : ListOnly s (s.returned n) :=
  (returned_within (.start le_rfl) n).only

theorem returned_other (s : State) {n : Serial} {k : Key} (other : k ≠ stationKey n .unitSilent) :
    (s.returned n).faults.entryOf k = s.faults.entryOf k := by
  unfold State.returned
  dsimp only
  split
  · rw [clear_entryOf_other _ other, raise_entryOf]
  · exact raise_entryOf _ _ _

theorem ranked_entryOf (s : State) (n : Serial) {k : Key} (own : k.serial = n) : (s.ranked n).faults.entryOf k =
    ((s.returned n).faults.entryOf k).map fun e => { e with rankCur := s.roster.slotOf n } := by
  rw [State.ranked, setRanks_entryOf, if_pos own, (returned_only s n).roster]

theorem ranked_other (s : State) {n : Serial} {k : Key} (own : k.serial = n) (other : k ≠ stationKey n .unitSilent) :
    (s.ranked n).faults.entryOf k = (s.faults.entryOf k).map fun e => { e with rankCur := s.roster.slotOf n } := by
  rw [ranked_entryOf s n own, returned_other s other]

/-- R189, step 2: UNIT SILENT that is ACTIVE is cleared. -/
theorem ranked_silent {s : State} (law : s.listLaw = true) {n : Serial} {x : Entry}
    (found : s.faults.entryOf (stationKey n .unitSilent) = some x) (active : x.state = .active) :
    (s.ranked n).faults.entryOf (stationKey n .unitSilent) =
      x.afterClear.map fun e => { e with rankCur := s.roster.slotOf n } := by
  have raised : (s.raise (.stationJoined n)).faults.entryOf (stationKey n .unitSilent) = some x :=
    (raise_entryOf _ _ _).trans found
  have cleared : s.returned n = (s.raise (.stationJoined n)).clear (stationKey n .unitSilent) :=
    if_pos (by rw [raised, Option.map_some, active])
  rw [ranked_entryOf s n rfl, cleared, clear_entryOf_own ((raise_listLaw _ _).trans law), raised, Option.bind_some]

theorem clears_other (keys : List Key) (s : State) {k : Key} (other : k ∉ keys) :
    (keys.foldl State.clear s).faults.entryOf k = s.faults.entryOf k := by
  induction keys generalizing s with
  | nil => rfl
  | cons j keys ih =>
    obtain ⟨ne, rest⟩ := not_or.1 (mt List.mem_cons.2 other)
    exact (ih _ rest).trans (clear_entryOf_other s ne)

theorem clears_own (keys : List Key) {s : State} (law : s.listLaw = true) {k : Key} (there : k ∈ keys) :
    (keys.foldl State.clear s).faults.entryOf k = (s.faults.entryOf k).bind Entry.afterClear := by
  induction keys generalizing s with
  | nil => cases there
  | cons j keys ih =>
    rw [List.foldl_cons]
    by_cases own : k = j
    · by_cases again : k ∈ keys
      · rw [ih (clear_listLaw law j) again, ← own, clear_entryOf_own law, afterClear_twice]
      · rw [clears_other keys _ again, ← own, clear_entryOf_own law]
    · rw [ih (clear_listLaw law j) ((List.mem_cons.1 there).resolve_left own), clear_entryOf_other s own]

theorem clears_within {b s : State} {m : Nat} (w : Within b m s) (keys : List Key) :
    Within b m (keys.foldl State.clear s) := by
  induction keys generalizing s with
  | nil => exact w
  | cons j keys ih => exact ih (w.clear j)

theorem joinStation_within {b s : State} {m : Nat} (w : Within b m s) (n : Serial) (now : Report) :
    Within b (m + 16) (s.joinStation n now) :=
  clears_within (comparePasses_within (ranked_within w n) n none now) _

/-- R189: the keys that a first STATUS confirms. -/
theorem mem_keys (x : Report) (n : Serial) (k : Key) :
    k ∈ x.keys n ↔ (∃ c, x.keyAt n c = some k) ∨ ∃ f c, x.openAt f c ∧ k = lossKey n f := by
  unfold Report.keys
  rw [List.mem_append, List.mem_filterMap, List.mem_filterMap]
  refine or_congr ⟨fun ⟨c, _, h⟩ => ⟨c, ?_⟩, fun ⟨c, h⟩ => ⟨c, mem_allCirc c, ?_⟩⟩
    ⟨fun ⟨i, _, h⟩ => ?_, fun ⟨f, c, opened, eq⟩ => ⟨f.idx, mem_allCirc _, ?_⟩⟩
  · rw [reportKey_some, Option.map_map] at h
    exact Option.map_id'.symm.trans h
  · rw [reportKey_some, Option.map_map]
    exact Option.map_id'.trans h
  · cases loss : x.loss (.ofIdx i) with
    | none => rw [loss] at h; cases h
    | shadowed => rw [loss] at h; cases h
    | entered a m =>
      rw [loss] at h
      obtain ⟨c, opened⟩ := (loss_entered_iff x _).1 ⟨a, m, loss⟩
      exact ⟨_, c, opened, (Option.some.inj h).symm⟩
  · obtain ⟨a, m, loss⟩ := loss_open opened
    rw [ofIdx_idx, loss, eq]
    rfl

section
variable {b s : State} (w : Within b 16 s) {n : Serial} {now : Report} {k : Key}
include w

/-- R189: each of them is confirmed once. -/
theorem join_confirms (shown : k ∈ now.keys n) : ∃ v d, Within b 31 v ∧ v.faults.entryOf k = s.faults.entryOf k ∧
    (s.comparePasses n none now).faults.entryOf k = (v.confirm k d none).faults.entryOf k := by
  rcases (mem_keys now n k).1 shown with ⟨c, at_⟩ | ⟨f, c, opened, rfl⟩
  · obtain ⟨v, within, stood, done⟩ := compare_new w (prev := none) at_ nofun
    exact ⟨v, _, within, stood, done⟩
  · obtain ⟨a, m, entered⟩ := loss_open opened
    obtain ⟨v, within, stood, done⟩ := compare_lossNew w (n := n) (prev := none) entered (.inl rfl)
    exact ⟨v, _, within, stood, done⟩

/-- R189: no other key is. -/
theorem join_spares (hidden : k ∉ now.keys n) : (s.comparePasses n none now).faults.entryOf k = s.faults.entryOf k := by
  cases circuit : k.circuit with
  | some c =>
    obtain ⟨u, v, -, wv, stood, cleared, confirmed⟩ := comparePasses_circuit w n none now circuit
    refine (confirmed.trans ?_).trans (cleared.trans stood)
    rw [confirmCircuit_eq]
    cases at_ : now.keyAt n c with
    | none => rfl
    | some j =>
      have other : k ≠ j := by
        rintro rfl
        exact hidden ((mem_keys now n k).2 (.inl ⟨c, at_⟩))
      dsimp only
      rw [if_neg nofun]
      exact confirm_entryOf_other other (Nat.lt_succ_of_le wv.length) _ _
  | none =>
    by_cases loss : ∃ f, k = lossKey n f
    · obtain ⟨f, rfl⟩ := loss
      have closed (c : Circ) : ¬ now.openAt f c := fun opened =>
        hidden ((mem_keys now n _).2 (.inr ⟨f, c, opened, rfl⟩))
      exact compare_lossLeft w (.inl rfl) (loss_closed closed)
    · exact comparePasses_spares w n none now circuit (not_exists.1 loss)

end

/-! ## A return that the list knows already (R189) -/

/-- R181: every key of a list stands. -/
def State.Stands (s : State) (keys : List Key) : Prop :=
  ∀ k ∈ keys, ∃ e, s.faults.entryOf k = some e ∧ e.state ≠ .cleared

/-- R181: from s to t no event is raised, and what stands stands on. -/
def SilentFor (keys : List Key) (s t : State) : Prop := s.Stands keys → t.Stands keys ∧ t.events = s.events

theorem SilentFor.foldl {keys : List Key} {f : State → Circ → State} (h : ∀ s c, SilentFor keys s (f s c))
    (l : List Circ) (s : State) : SilentFor keys s (l.foldl f s) := by
  induction l generalizing s with
  | nil => exact fun stands => ⟨stands, rfl⟩
  | cons c l ih =>
    intro stands
    obtain ⟨first, same⟩ := h s c stands
    obtain ⟨rest, events⟩ := ih _ first
    exact ⟨rest, events.trans same⟩

theorem confirm_silentFor {keys : List Key} {k : Key} (there : k ∈ keys) (s : State) (d : Details)
    (claim : Option Rank) : SilentFor keys s (s.confirm k d claim) := by
  intro stands
  obtain ⟨e, found, stood⟩ := stands k there
  refine ⟨fun j listed => ?_, (confirm_events_standing found stood d claim).1⟩
  by_cases own : j = k
  · rw [own]
    exact ⟨_, confirm_entryOf_standing found stood d claim, EntryState.noConfusion⟩
  · obtain ⟨x, at_, up⟩ := stands j listed
    exact ⟨x, confirm_entryOf_stands own at_ up d claim, up⟩

theorem confirmCircuit_silentFor (n : Serial) (now : Report) (s : State) (c : Circ) :
    SilentFor (now.keys n) s (confirmCircuit n none now s c) := by
  rw [confirmCircuit_eq]
  cases shown : now.keyAt n c with
  | none => exact fun stands => ⟨stands, rfl⟩
  | some k =>
    dsimp only
    rw [if_neg nofun]
    exact confirm_silentFor ((mem_keys now n k).2 (.inl ⟨c, shown⟩)) s _ _

theorem confirmLoss_silentFor (n : Serial) (now : Report) (s : State) (i : Circ) :
    SilentFor (now.keys n) s (confirmLoss n none now s i) := by
  unfold confirmLoss
  dsimp only
  cases loss : now.loss (.ofIdx i) with
  | none => exact fun stands => ⟨stands, rfl⟩
  | shadowed => exact fun stands => ⟨stands, rfl⟩
  | entered a m =>
    obtain ⟨c, opened⟩ := (loss_entered_iff now _).1 ⟨a, m, loss⟩
    exact confirm_silentFor ((mem_keys now n _).2 (.inr ⟨_, c, opened, rfl⟩)) s _ _

/-- R181, R189: a first STATUS whose faults all stand raises nothing by its confirmations. -/
theorem comparePasses_silent {s : State} {n : Serial} {now : Report} (stands : s.Stands (now.keys n)) :
    (s.comparePasses n none now).events = s.events := by
  have first : allCirc.foldl (clearLoss n none now) (allCirc.foldl (clearCircuit n none now) s) = s := rfl
  have circuits := SilentFor.foldl (confirmCircuit_silentFor n now) allCirc s stands
  have losses := SilentFor.foldl (confirmLoss_silentFor n now) allCirc _ circuits.1
  show (allCirc.foldl (confirmLoss n none now) (allCirc.foldl (confirmCircuit n none now)
    (allCirc.foldl (clearLoss n none now) (allCirc.foldl (clearCircuit n none now) s)))).events = s.events
  rw [first]
  exact losses.2.trans circuits.2

/-- R189, step 5: what a first STATUS leaves unresolved. -/
theorem mem_unresolved {s : State} (law : s.listLaw = true) {n : Serial} {keys : List Key} {k : Key} {e : Entry}
    (found : s.faults.entryOf k = some e) : k ∈ s.faults.unresolved n keys ↔
      k.serial = n ∧ e.state ≠ .cleared ∧ k.kind ≠ .unitSilent ∧ k.kind ≠ .rankClash ∧ k ∉ keys := by
  obtain ⟨listed, rfl⟩ := entryOf_mem found
  have stands_iff : e.state.stands = true ↔ e.state ≠ .cleared := by cases e.state <;> simp [EntryState.stands]
  have holds_iff : (e.key.serial == n && e.state.stands && e.key.kind != .unitSilent && e.key.kind != .rankClash &&
      !keys.contains e.key) = true ↔ e.key.serial = n ∧ e.state ≠ .cleared ∧ e.key.kind ≠ .unitSilent ∧
        e.key.kind ≠ .rankClash ∧ e.key ∉ keys := by
    simp [stands_iff, and_assoc]
  constructor
  · intro there
    obtain ⟨x, stood, same⟩ := List.mem_map.1 there
    obtain ⟨inside, holds⟩ := List.mem_filter.1 stood
    have eq := (entryOf_of_mem law inside).symm.trans (same ▸ found)
    cases eq
    exact holds_iff.1 holds
  · exact fun h => List.mem_map.2 ⟨e, List.mem_filter.2 ⟨listed, holds_iff.2 h⟩, rfl⟩

theorem unresolved_kinds {l : FaultList} {n : Serial} {keys : List Key} {k : Key} (h : k ∈ l.unresolved n keys) :
    k.kind ≠ .unitSilent ∧ k.kind ≠ .rankClash ∧ k ∉ keys := by
  obtain ⟨x, stood, rfl⟩ := List.mem_map.1 h
  have holds := (List.mem_filter.1 stood).2
  simp only [Bool.and_eq_true, bne_iff_ne, Bool.not_eq_true', List.contains_eq_mem, decide_eq_false_iff_not] at holds
  obtain ⟨⟨⟨-, silent⟩, clash⟩, hidden⟩ := holds
  exact ⟨silent, clash, hidden⟩

end Sys2Proof.Machine
end

section
/-! SUPPORT. A STATUS of a ranked peer on the head (R150, R156, R180, R189, R190): where it is placed, and the input of
the fault list that it becomes. -/

namespace Sys2Proof.Machine

/-! ## The roster around a serial (R147, R150) -/

/-- R147: a serial stands in no slot but one at most, and not in the unplaced list. -/
def Roster.OnlyAt (x : Roster) (n : Serial) (place : Option Rank) : Prop :=
  (∀ q : Rank, some q ≠ place → (x.slots[q].map RosterEntry.serial) ≠ some n) ∧ ∀ u ∈ x.unplaced, u.serial ≠ n

theorem slotOf_eq_some {x : Roster} {n : Serial} {r : Rank} (own : x.slots[r].map RosterEntry.serial = some n)
    (others : ∀ q : Rank, q ≠ r → x.slots[q].map RosterEntry.serial ≠ some n) : x.slotOf n = some r := by
  refine (find_allCirc _ r).2 ⟨by simpa using own, fun q less same => others q less.ne ?_⟩
  simpa using same

theorem slotOf_eq_none {x : Roster} {n : Serial} (others : ∀ q : Rank, x.slots[q].map RosterEntry.serial ≠ some n) :
    x.slotOf n = none := List.find?_eq_none.2 fun q _ same => others q (by simpa using same)

theorem Roster.OnlyAt.slotOf_none {x : Roster} {n : Serial} (h : x.OnlyAt n none) : x.slotOf n = none :=
  slotOf_eq_none fun q => h.1 q (Option.some_ne_none q)

theorem Roster.OnlyAt.slotOf_some {x : Roster} {n : Serial} {r : Rank} {e : RosterEntry} (h : x.OnlyAt n (some r))
    (there : x.slots[r] = some e) (own : e.serial = n) : x.slotOf n = some r :=
  slotOf_eq_some (by rw [there, Option.map_some, own]) fun q ne => h.1 q fun same => ne (Option.some.inj same)

theorem Roster.OnlyAt.unlisted {x : Roster} {n : Serial} {p : Option Rank} (h : x.OnlyAt n p) : x.lists n = false :=
  lists_eq_false fun ⟨u, there, own⟩ => h.2 u there own

theorem clashing_false {x : Roster} {n : Serial} (h : ∀ u ∈ x.unplaced, u.serial ≠ n) : x.clashing n = false := by
  refine List.any_eq_false.2 fun u there => ?_
  simp [h u there]

theorem intoSlot_slotOf (x : Roster) (r : Rank) (e : RosterEntry) : (x.intoSlot r e).1.slotOf e.serial = some r := by
  obtain ⟨own, -, others⟩ := intoSlot_spec x r e
  refine slotOf_eq_some (by rw [own, Option.map_some]) fun q ne => ?_
  rw [others q ne]
  split
  · exact nofun
  · next differs => exact differs

theorem intoSlot_clashing (x : Roster) (r : Rank) (e : RosterEntry) :
    (x.intoSlot r e).1.clashing e.serial = false := by
  obtain ⟨-, list, -⟩ := intoSlot_spec x r e
  refine clashing_false fun u there => ?_
  rw [list] at there
  simpa using (List.mem_filter.1 there).2

theorem slotsWithout_slotOf (x : Roster) (n : Serial) (l : List RosterEntry) :
    (⟨x.slotsWithout n, l⟩ : Roster).slotOf n = none := by
  refine slotOf_eq_none fun q => ?_
  rw [slotsWithout_get]
  cases x.slots[q] with
  | none => exact nofun
  | some e => by_cases own : e.serial = n <;> simp [Option.filter, own]

/-! ## The STATUS as the head takes it -/

theorem listStatus_learner (s : State) (before : Roster) (h : RxHeader) (prev : Option Report) (rep : Report)
    (out : Placement) : (s.listStatus before h prev rep out).learner = s.learner := by
  unfold State.listStatus
  split
  · exact (statusInput_listOnly _ _ _ _ _).learner
  · dsimp only
    split
    · exact ((clashChange_listOnly _ _ _ _).trans (statusInput_listOnly _ _ _ _ _)).learner
    · exact ((statusInput_listOnly _ _ _ _ _).trans (clashChange_listOnly _ _ _ _)).learner

theorem learnStatus_untracked {s : State} (none_ : s.learner.tracked = []) (n : Serial) (rep : Report)
    (out : Placement) : s.learnStatus n rep out = s := by
  have same : s.trackLearning n rep = s := by
    unfold State.trackLearning
    rw [none_]
    rfl
  cases out with
  | notTaken => rfl
  | new => exact same
  | refreshed => exact same
  | moved src dst => exact same

theorem noteUnlisted_learner (s : State) (out : Placement) : (s.noteUnlisted out).learner = s.learner := by
  cases out <;> rfl

/-- R156, R180: the head with nothing tracked takes a STATUS of a peer: roster, fault list, balance checker, queue. -/
theorem takeStatus_head {s : State} (head : s.isHead = true) (untracked : s.learner.tracked = []) (h : RxHeader)
    (rep : Report) : s.takeStatus h rep = ((((s.rosterStatus h rep).listStatus s.roster h
      (if (s.place h rep).2 = .new then none else (s.roster.entryOf h.serial).map RosterEntry.report) rep
      (s.place h rep).2).noteUnlisted (s.place h rep).2).raiseRankChanged h.serial (s.place h rep).2) := by
  unfold State.takeStatus
  dsimp only
  rw [if_pos head, learnStatus_untracked]
  rw [(raiseRankChanged_listOnly _ _ _).learner, noteUnlisted_learner, listStatus_learner]
  exact untracked

theorem raiseRankChanged_faults (s : State) (n : Serial) (out : Placement) :
    (s.raiseRankChanged n out).faults = s.faults := by
  unfold State.raiseRankChanged
  split <;> simp

theorem State.Settled.noteUnlisted {s : State} (h : s.Settled) (out : Placement) : (s.noteUnlisted out).Settled := by
  cases out with
  | notTaken => exact h.congr rfl rfl
  | new => exact h
  | refreshed => exact h
  | moved src dst => exact h

theorem State.Settled.raiseRankChanged {s : State} (h : s.Settled) (n : Serial) (out : Placement) :
    (s.raiseRankChanged n out).Settled :=
  h.congr (raiseRankChanged_faults s n out) (raiseRankChanged_listOnly s n out).roster

/-- R193: after any STATUS on the head the extents are those recomputed. -/
theorem takeStatus_settled {s : State} (head : s.isHead = true) (untracked : s.learner.tracked = []) (h : RxHeader)
    (rep : Report) : (s.takeStatus h rep).Settled := by
  rw [takeStatus_head head untracked]
  exact ((listStatus_settled _ _ _ _ _ _).noteUnlisted _).raiseRankChanged _ _

/-! ## Where it is placed -/

/-- R150: the head with a STATUS of a peer in slot r. -/
def State.seated (s : State) (h : RxHeader) (rep : Report) (r : Rank) : State :=
  { s with roster := (s.roster.intoSlot r (s.entryFrom h rep false)).1 }

theorem seated_slotOf (s : State) (h : RxHeader) (rep : Report) (r : Rank) :
    (s.seated h rep r).roster.slotOf h.serial = some r := intoSlot_slotOf _ _ _

section
variable {s : State} {h : RxHeader} {rep : Report} {r : Rank} (head : s.isHead = true)
  (untracked : s.learner.tracked = []) (peer : h.serial ≠ s.cfg.serial) (claim : claimOf h = some r)
  (free : ¬ s.slotTaken h.serial r)
include head untracked peer claim free

theorem takeStatus_seated {out : Placement} (placed : (s.roster.intoSlot r (s.entryFrom h rep false)).2 = out)
    (calm : ∀ u ∈ s.roster.unplaced, u.serial ≠ h.serial) : s.takeStatus h rep =
      ((((s.seated h rep r).statusInput h.serial
        (if out = .new then none else (s.roster.entryOf h.serial).map RosterEntry.report) rep
        out).noteUnlisted out).raiseRankChanged h.serial out) := by
  have place := place_slot (destination_open peer claim free) rep
  have taken : (s.place h rep).2 ≠ .notTaken := by rw [place]; exact intoSlot_taken _ _ _
  have quiet : s.roster.clashing h.serial = (s.rosterStatus h rep).roster.clashing h.serial := by
    rw [rosterStatus_taken taken, place, clashing_false calm]
    exact (intoSlot_clashing s.roster r (s.entryFrom h rep false)).symm
  rw [takeStatus_head head untracked, State.listStatus, if_pos quiet, rosterStatus_taken taken, place, placed]
  rfl

/-- R189: a STATUS with outcome NEW. -/
theorem takeStatus_new (single : s.roster.OnlyAt h.serial none) :
    s.takeStatus h rep = ((s.seated h rep r).joinStation h.serial rep).settleList := by
  have placed : (s.roster.intoSlot r (s.entryFrom h rep false)).2 = .new := by
    show (match s.roster.slotOf h.serial with | some q => _ | none => _) = _
    rw [single.slotOf_none]
    exact if_neg (by rw [State.entryFrom, single.unlisted]; decide)
  rw [takeStatus_seated head untracked peer claim free placed single.2]
  exact if_neg peer

/-- R190: a STATUS with outcome REFRESHED. -/
theorem takeStatus_refreshed {e : RosterEntry} (single : s.roster.OnlyAt h.serial (some r))
    (there : s.roster.slots[r] = some e) (own : e.serial = h.serial) :
    s.takeStatus h rep = ((s.seated h rep r).hearStation h.serial (some e.report) rep).settleList := by
  have slot := single.slotOf_some there own
  have placed : (s.roster.intoSlot r (s.entryFrom h rep false)).2 = .refreshed := by
    show (match s.roster.slotOf h.serial with | some q => _ | none => _) = _
    rw [slot]
    exact if_pos rfl
  have entry : s.roster.entryOf h.serial = some e := by
    rw [Roster.entryOf, slot]
    exact there
  rw [takeStatus_seated head untracked peer claim free placed single.2, entry]
  exact if_neg peer

/-- R157, R190: a STATUS with outcome MOVED from slot to slot. -/
theorem takeStatus_moved {e : RosterEntry} {q : Rank} (ne : q ≠ r) (single : s.roster.OnlyAt h.serial (some q))
    (there : s.roster.slots[q] = some e) (own : e.serial = h.serial) :
    s.takeStatus h rep = (((s.seated h rep r).hearStation h.serial (some e.report) rep).settleList).raise
      (.rankChanged h.serial) := by
  have slot := single.slotOf_some there own
  have placed : (s.roster.intoSlot r (s.entryFrom h rep false)).2 = .moved (some q) (some r) := by
    show (match s.roster.slotOf h.serial with | some q => _ | none => _) = _
    rw [slot]
    exact if_neg ne
  have entry : s.roster.entryOf h.serial = some e := by
    rw [Roster.entryOf, slot]
    exact there
  rw [takeStatus_seated head untracked peer claim free placed single.2, entry]
  exact congrArg (State.raise · _) (if_neg peer)

end

/-- R151: ROSTER FULL set. -/
def State.refused (s : State) : State := { s with flags := { s.flags with rosterFull := true } }

/-- R151, R172: a STATUS that is not taken. -/
theorem takeStatus_refused {s : State} {h : RxHeader} {rep : Report} {r : Rank} (head : s.isHead = true)
    (untracked : s.learner.tracked = []) (peer : h.serial ≠ s.cfg.serial) (claim : claimOf h = some r)
    (taken : s.slotTaken h.serial r) (full : 4 ≤ s.roster.unplaced.length)
    (calm : ∀ u ∈ s.roster.unplaced, u.serial ≠ h.serial) :
    s.takeStatus h rep = s.refused.settleList.noteUnlisted .notTaken := by
  have place := place_list (destination_list (.inr (.inr ⟨r, claim, taken⟩))) rep
  rw [intoList_full (e := s.entryFrom h rep _) (lists_eq_false fun ⟨u, there, own⟩ => calm u there own) full] at place
  have refused : (s.place h rep).2 = .notTaken := by rw [place]
  have same := rosterStatus_notTaken refused
  rw [takeStatus_head head untracked, refused, same, State.listStatus, if_pos rfl]
  exact congrArg (State.noteUnlisted · .notTaken) (if_neg peer)

/-- R150, R154: the head with a STATUS of a peer in the unplaced list, in clash. -/
def State.clashListed (s : State) (h : RxHeader) (rep : Report) : State :=
  { s with
    roster := ⟨s.roster.slotsWithout h.serial, s.roster.unplaced ++ [s.entryFrom h rep true]⟩, free := s.free + 1 }

/-- R154, R192, R196: a claim to a slot that another serial holds begins a rank clash, before or after the STATUS. -/
theorem takeStatus_clash {s : State} {h : RxHeader} {rep : Report} {r : Rank} (head : s.isHead = true)
    (untracked : s.learner.tracked = []) (claim : claimOf h = some r)
    (taken : s.slotTaken h.serial r) (room : s.roster.unplaced.length < 4) (single : s.roster.OnlyAt h.serial none) :
    s.takeStatus h rep =
        ((s.clashListed h rep).rankClashInput h.serial true (some r)).statusInput h.serial none rep .new ∨
      s.takeStatus h rep =
        ((s.clashListed h rep).statusInput h.serial none rep .new).rankClashInput h.serial true (some r) := by
  have place := place_list (destination_list (.inr (.inr ⟨r, claim, taken⟩))) rep
  rw [if_pos (.inr (claim ▸ Option.some_ne_none r))] at place
  have placed : s.place h rep =
      (⟨s.roster.slotsWithout h.serial, s.roster.unplaced ++ [s.entryFrom h rep true]⟩, .new) := by
    rw [place, Roster.intoList, if_neg (by rw [State.entryFrom, single.unlisted]; decide), if_pos room]
    show (_, match s.roster.slotOf h.serial with | some q => _ | none => _) = _
    rw [single.slotOf_none]
    rfl
  have seated : s.rosterStatus h rep = { s with
      roster := ⟨s.roster.slotsWithout h.serial, s.roster.unplaced ++ [s.entryFrom h rep true]⟩ } := by
    rw [rosterStatus_taken (by rw [placed]; exact nofun), placed]
  have before : s.roster.clashing h.serial = false := clashing_false single.2
  have after : (s.clashListed h rep).roster.clashing h.serial = true :=
    List.any_eq_true.2 ⟨s.entryFrom h rep true, by simp [State.clashListed], by simp [State.entryFrom]⟩
  have begins (t : State) (same : t.roster = (s.clashListed h rep).roster) :
      t.clashChange s.roster h.serial (claimOf h) = t.rankClashInput h.serial true (some r) := by
    rw [State.clashChange, before, same, after, claim]
  have differs : ¬ s.roster.clashing h.serial = (s.rosterStatus h rep).roster.clashing h.serial := by
    rw [before, seated]
    exact fun same => absurd (same.trans after) Bool.false_ne_true
  have whole : s.takeStatus h rep = if Config.clashFirst s.free = true then
      ((s.clashListed h rep).clashChange s.roster h.serial (claimOf h)).statusInput h.serial none rep .new
    else ((s.clashListed h rep).statusInput h.serial none rep .new).clashChange s.roster h.serial (claimOf h) := by
    rw [takeStatus_head head untracked, placed, State.listStatus, if_neg differs, seated]
    rfl
  rw [whole]
  split
  · exact .inl (by rw [begins _ rfl])
  · exact .inr (begins _ (statusInput_listOnly _ _ _ _ _).roster)

end Sys2Proof.Machine
end

section
/-! SUPPORT. The entries of a peer once the list has taken its STATUS (R189, R190), and the obligation. -/

namespace Sys2Proof.Machine

theorem afterClear_state {e x : Entry} (h : e.afterClear = some x) : x.state = .cleared := by
  unfold Entry.afterClear at h
  split at h
  · next cleared => cases h; exact cleared
  · split at h
    · cases h
    · cases h
      rfl

/-- R182, R193: what a clear leaves has no extent. -/
theorem settleList_afterClear {s : State} {k : Key} {e : Option Entry}
    (found : s.faults.entryOf k = e) (cleared : ∀ x, e = some x → x.state = .cleared) :
    s.settleList.faults.entryOf k = e.map fun x => { x with extent := 0 } := by
  cases e with
  | none => rw [settleList_entryOf, found]; rfl
  | some x => exact settleList_entryOf_zero found (.inr (.inr (by simp [cleared x rfl])))

theorem keys_own {x : Report} {n : Serial} {k : Key} (h : k ∈ x.keys n) : k.serial = n ∧ ∀ j, k ≠ stationKey n j := by
  rcases (mem_keys x n k).1 h with ⟨c, shown⟩ | ⟨f, c, -, rfl⟩
  · obtain ⟨y, -, -, rfl⟩ := keyAt_eq.1 shown
    exact ⟨rfl, nofun⟩
  · exact ⟨rfl, nofun⟩

/-! ## After a first STATUS (R189) -/

section
variable {b : State} {n : Serial} {now : Report} (few : b.faults.entries.length ≤ 16)
include few

theorem ranked_start : Within b 16 (b.ranked n) := ranked_within (.start few) n

/-- R189, step 4: a fault that the report shows is confirmed. -/
theorem joined_confirms {k : Key} (shown : k ∈ now.keys n) : ∃ d x,
    (b.joinStation n now).settleList.faults.entryOf k = some { b.confirmedEntry k d none
      ((b.faults.entryOf k).map fun e => { e with rankCur := b.roster.slotOf n }) with extent := x } := by
  obtain ⟨own, other⟩ := keys_own shown
  obtain ⟨v, d, within, stood, done⟩ := join_confirms (ranked_start few (n := n)) shown
  have kept : k ∉ ((b.ranked n).comparePasses n none now).faults.unresolved n (now.keys n) := fun left =>
    (unresolved_kinds left).2.2 shown
  have last : (b.joinStation n now).faults.entryOf k = some (b.confirmedEntry k d none
      ((b.faults.entryOf k).map fun e => { e with rankCur := b.roster.slotOf n })) := by
    rw [joinStation_eq, clears_other _ _ kept, done, within.confirm_entryOf, stood, ranked_other b own (other _)]
  exact ⟨d, _, (settleList_entryOf _ k).trans (by rw [last, Option.map_some])⟩

/-- R189, step 5: any other is cleared. -/
theorem joined_hidden (law : b.listLaw = true) {k : Key} {x : Entry} (found : b.faults.entryOf k = some x)
    (own : k.serial = n) (silent : k.kind ≠ .unitSilent) (clash : k.kind ≠ .rankClash) (hidden : k ∉ now.keys n) :
    (b.joinStation n now).settleList.faults.entryOf k =
      (({ x with rankCur := b.roster.slotOf n } : Entry).afterClear).map fun e => { e with extent := 0 } := by
  have compared : ((b.ranked n).comparePasses n none now).faults.entryOf k =
      some { x with rankCur := b.roster.slotOf n } := by
    rw [join_spares (ranked_start few) hidden, ranked_other b own (other_ne_silentKey silent), found, Option.map_some]
  have kept := (comparePasses_within (ranked_start few (n := n)) n none now).law law
  refine settleList_afterClear ?_ fun y eq => afterClear_state eq
  rw [joinStation_eq]
  by_cases cleared : x.state = .cleared
  · have stays : k ∉ ((b.ranked n).comparePasses n none now).faults.unresolved n (now.keys n) := fun left =>
      ((mem_unresolved kept compared).1 left).2.1 cleared
    have idle := afterClear_cleared (e := { x with rankCur := b.roster.slotOf n }) cleared
    exact (clears_other _ _ stays).trans (compared.trans idle.symm)
  · have goes := (mem_unresolved kept (n := n) compared).2 ⟨own, cleared, silent, clash, hidden⟩
    rw [clears_own _ kept goes, compared, Option.bind_some]

/-- R189, step 2: UNIT SILENT is cleared. -/
theorem joined_silent (law : b.listLaw = true) {x : Entry}
    (found : b.faults.entryOf (stationKey n .unitSilent) = some x) (active : x.state = .active) :
    (b.joinStation n now).settleList.faults.entryOf (stationKey n .unitSilent) =
      x.afterClear.map fun e => { e with rankCur := b.roster.slotOf n, extent := 0 } := by
  have hidden : stationKey n .unitSilent ∉ now.keys n := fun shown => (keys_own shown).2 _ rfl
  have stays : stationKey n .unitSilent ∉
      ((b.ranked n).comparePasses n none now).faults.unresolved n (now.keys n) := fun left =>
    (unresolved_kinds left).1 rfl
  have before : (b.joinStation n now).faults.entryOf (stationKey n .unitSilent) =
      x.afterClear.map fun e => { e with rankCur := b.roster.slotOf n } := by
    rw [joinStation_eq, clears_other _ _ stays, join_spares (ranked_start few) hidden, ranked_silent law found active]
  rw [settleList_afterClear before, Option.map_map]
  · rfl
  · intro y eq
    obtain ⟨z, left, rfl⟩ := Option.map_eq_some_iff.1 eq
    have idle := afterClear_state left
    exact idle

/-- R192: a station that joins leaves its RANK CLASH. -/
theorem joined_clash : (b.joinStation n now).faults.entryOf (stationKey n .rankClash) =
    (b.faults.entryOf (stationKey n .rankClash)).map fun e => { e with rankCur := b.roster.slotOf n } := by
  have hidden : stationKey n .rankClash ∉ now.keys n := fun shown => (keys_own shown).2 _ rfl
  have stays : stationKey n .rankClash ∉
      ((b.ranked n).comparePasses n none now).faults.unresolved n (now.keys n) := fun left =>
    (unresolved_kinds left).2.1 rfl
  rw [joinStation_eq, clears_other _ _ stays, join_spares (ranked_start few) hidden,
    ranked_other b (n := n) (k := stationKey n .rankClash) rfl (other_ne_silentKey nofun)]

/-- R189, R200: a return whose faults all stand raises STATION JOINED alone. -/
theorem joined_events (head : b.isHead = true) (law : b.listLaw = true) (empty : b.events = [])
    (stands : b.Stands (now.keys n))
    (all : ∀ x ∈ b.faults.entries, x.key.serial = n → x.state ≠ .cleared → x.key ∈ now.keys n) :
    (b.joinStation n now).settleList.events = [⟨.stationJoined n, b.trainSeconds⟩] := by
  have raised : (b.raise (.stationJoined n)).events = [⟨.stationJoined n, b.trainSeconds⟩] := by
    rw [raise_events head (by simp [empty]), empty]
    rfl
  have silent : b.returned n = b.raise (.stationJoined n) := by
    refine if_neg fun active => ?_
    rw [raise_entryOf] at active
    obtain ⟨x, found, up⟩ := Option.map_eq_some_iff.1 active
    obtain ⟨listed, key⟩ := entryOf_mem found
    have shown := all x listed (congrArg Key.serial key) (by simp [up])
    exact (keys_own shown).2 _ key
  have first : (b.ranked n).events = [⟨.stationJoined n, b.trainSeconds⟩] := by
    rw [State.ranked, silent]
    exact raised
  have up : (b.ranked n).Stands (now.keys n) := by
    intro k shown
    obtain ⟨own, other⟩ := keys_own shown
    obtain ⟨e, found, stood⟩ := stands k shown
    refine ⟨{ e with rankCur := b.roster.slotOf n }, ?_, stood⟩
    rw [ranked_other b own (other _), found, Option.map_some]
  have kept := (comparePasses_within (ranked_start few (n := n)) n none now).law law
  have none_ : ((b.ranked n).comparePasses n none now).faults.unresolved n (now.keys n) = [] := by
    refine List.eq_nil_iff_forall_not_mem.2 fun k left => ?_
    obtain ⟨x, stood, key⟩ := List.mem_map.1 left
    have found := key ▸ entryOf_of_mem kept (List.mem_filter.1 stood).1
    obtain ⟨own, up, kind, -, hidden⟩ := (mem_unresolved kept found).1 left
    rw [join_spares (ranked_start few) hidden, ranked_other b own (other_ne_silentKey kind)] at found
    obtain ⟨y, old, rfl⟩ := Option.map_eq_some_iff.1 found
    obtain ⟨listed, same⟩ := entryOf_mem old
    exact hidden (same ▸ all y listed (same ▸ own) up)
  rw [settleList_events, joinStation_eq, none_, List.foldl_nil, comparePasses_silent up, first]

end

/-! ## The first event -/

theorem clearCircuit_adds (n : Serial) (prev : Option Report) (now : Report) (s : State) (c : Circ) :
    EventsAdd s (clearCircuit n prev now s c) := by
  unfold clearCircuit
  split
  · exact .same rfl
  · split
    · exact .same rfl
    · exact clear_adds _ _

theorem clearLoss_adds (n : Serial) (prev : Option Report) (now : Report) (s : State) (i : Circ) :
    EventsAdd s (clearLoss n prev now s i) := by
  unfold clearLoss
  dsimp only
  split
  · exact clear_adds _ _
  · exact (clear_adds s _).trans (.same rfl)
  all_goals exact .same rfl

theorem confirmCircuit_adds (n : Serial) (prev : Option Report) (now : Report) (s : State) (c : Circ) :
    EventsAdd s (confirmCircuit n prev now s c) := by
  unfold confirmCircuit
  split
  · exact .same rfl
  · split
    · exact .same rfl
    · exact confirm_adds _ _ _ _

theorem confirmLoss_adds (n : Serial) (prev : Option Report) (now : Report) (s : State) (i : Circ) :
    EventsAdd s (confirmLoss n prev now s i) := by
  unfold confirmLoss
  dsimp only
  repeat' split
  · exact .same rfl
  · exact .same rfl
  · exact .same rfl
  · exact confirm_adds _ _ _ _
  · exact confirm_adds _ _ _ _

theorem comparePasses_adds (s : State) (n : Serial) (prev : Option Report) (now : Report) :
    EventsAdd s (s.comparePasses n prev now) :=
  (((EventsAdd.foldl (clearCircuit_adds n prev now) _ _).trans (.foldl (clearLoss_adds n prev now) _ _)).trans
    (.foldl (confirmCircuit_adds n prev now) _ _)).trans (.foldl (confirmLoss_adds n prev now) _ _)

/-- R189, step 1: STATION JOINED comes first. -/
theorem joined_head? {b : State} (head : b.isHead = true) (empty : b.events = []) (n : Serial) (now : Report) :
    (b.joinStation n now).settleList.events.head? = some ⟨.stationJoined n, b.trainSeconds⟩ := by
  have raised : (b.raise (.stationJoined n)).events = [⟨.stationJoined n, b.trainSeconds⟩] := by
    rw [raise_events head (by simp [empty]), empty]
    rfl
  have first : EventsAdd (b.raise (.stationJoined n)) (b.ranked n) := by
    unfold State.ranked State.returned
    dsimp only
    split
    · exact clear_adds _ _
    · exact .same rfl
  have rest : EventsAdd (b.ranked n) (b.joinStation n now).settleList :=
    ((comparePasses_adds _ n none now).trans (.foldl clear_adds _ _)).trans (settleList_adds _)
  exact (first.trans rest).head? raised

/-! ## After a later STATUS (R190) -/

section
variable {b : State} {n : Serial} {before now : Report} (few : b.faults.entries.length ≤ 16)
include few

theorem heard_start : Within b 16 (b.setRanks n (b.roster.slotOf n)) := (Within.start few).setRanks n _

omit few in
theorem heard_rank {k : Key} (own : k.serial = n) : (b.setRanks n (b.roster.slotOf n)).faults.entryOf k =
    (b.faults.entryOf k).map fun e => { e with rankCur := b.roster.slotOf n } := by
  rw [setRanks_entryOf, if_pos own]

/-- R190: a fault gone is cleared. -/
theorem heard_gone {c : Circ} {k : Key} (was : before.keyAt n c = some k) (not_ : now.keyAt n c ≠ some k) :
    ((b.hearStation n (some before) now).settleList.faults.entryOf k).all (fun x => x.state == .cleared) = true ∧
    (b.listLaw = true → ∀ x, b.faults.entryOf k = some x → x.state = .active → x.acked = true →
      (b.hearStation n (some before) now).settleList.faults.entryOf k = none) := by
  obtain ⟨y, -, -, own⟩ := keyAt_eq.1 was
  obtain ⟨u, within, stood, done⟩ := compare_gone (heard_start few) was not_
  have last : (b.hearStation n (some before) now).faults.entryOf k = (u.clear k).faults.entryOf k := done
  rw [settleList_entryOf, last, Option.all_map]
  refine ⟨clear_entryOf u k, fun law x found active acked => ?_⟩
  rw [clear_entryOf_own (within.law law), stood, heard_rank (own ▸ rfl), found, Option.map_some, Option.bind_some,
    afterClear_acked (e := { x with rankCur := b.roster.slotOf n }) (by simp [active]) acked]
  rfl

/-- R190: a new fault is confirmed. -/
theorem heard_new {c : Circ} {k : Key} (shown : now.keyAt n c = some k) (was : before.keyAt n c ≠ some k) :
    (b.hearStation n (some before) now).settleList.faults.entryOf k =
      some { b.confirmedEntry k (circuitDetails k.kind now.circuits[c].m) none
        ((b.faults.entryOf k).map fun e => { e with rankCur := b.roster.slotOf n }) with extent := 0 } := by
  obtain ⟨y, -, supply, own⟩ := keyAt_eq.1 shown
  obtain ⟨v, within, stood, done⟩ := compare_new (heard_start few) (prev := some before) shown was
  have last : (b.hearStation n (some before) now).faults.entryOf k = _ := done
  rw [within.confirm_entryOf, stood, heard_rank (own ▸ rfl)] at last
  refine settleList_entryOf_zero last (.inl ?_)
  obtain ⟨-, key⟩ := entryOf_mem last
  rw [key, own]
  exact supply

/-- R190: a fault that stays is a change of detail. -/
theorem heard_stays {c : Circ} {k : Key} (was : before.keyAt n c = some k) (shown : now.keyAt n c = some k) {x : Entry}
    (found : b.faults.entryOf k = some x) (stands : x.state ≠ .cleared) :
    (b.hearStation n (some before) now).settleList.faults.entryOf k = some { x with
      rankCur := b.roster.slotOf n, extent := 0
      details := if k.kind = .lampPartial then { x.details with m := now.circuits[c].m } else x.details } := by
  obtain ⟨y, -, supply, own⟩ := keyAt_eq.1 was
  have done := compare_stays (heard_start few (n := n)) was shown
  have up : x.state.stands = true := by cases state : x.state <;> simp_all [EntryState.stands]
  have last : (b.hearStation n (some before) now).faults.entryOf k = _ := done
  rw [heard_rank (own ▸ rfl), found, Option.map_some, Option.map_some, if_pos up] at last
  refine settleList_entryOf_zero last (.inl ?_)
  obtain ⟨-, key⟩ := entryOf_mem last
  rw [key, own]
  exact supply

/-- R190: a loss entered is confirmed. -/
theorem heard_lossNew {f : LampFn} {c : Circ} (leads : now.openAt f c) (first : ∀ d, d < c → ¬ now.openAt f d)
    (closed : ∀ d, ¬ before.openAt f d) : ∃ x,
      (b.hearStation n (some before) now).settleList.faults.entryOf (lossKey n f) =
        some { b.confirmedEntry (lossKey n f)
          (now.lossDetails f now.circuits[c].attribution now.circuits[c].front) none
          ((b.faults.entryOf (lossKey n f)).map fun e => { e with rankCur := b.roster.slotOf n }) with
          extent := x } := by
  obtain ⟨v, within, stood, done⟩ := compare_lossNew (heard_start few (n := n)) (n := n) (prev := some before)
    (loss_entered leads first) (loss_closed closed)
  have last : (b.hearStation n (some before) now).faults.entryOf (lossKey n f) = _ := done
  rw [within.confirm_entryOf, stood, heard_rank (n := n) (k := lossKey n f) rfl] at last
  exact ⟨_, (settleList_entryOf _ _).trans (by rw [last, Option.map_some])⟩

/-- R190: a loss that stays entered is a change of detail. -/
theorem heard_lossStays {f : LampFn} {c d : Circ} (leads : now.openAt f c) (first : ∀ d, d < c → ¬ now.openAt f d)
    (was : before.openAt f d) {y : Entry} (found : b.faults.entryOf (lossKey n f) = some y)
    (stands : y.state.stands = true) : ∃ x,
      (b.hearStation n (some before) now).settleList.faults.entryOf (lossKey n f) = some { y with
        rankCur := b.roster.slotOf n, extent := x
        details := now.lossDetails f now.circuits[c].attribution now.circuits[c].front } := by
  obtain ⟨a, m, entered⟩ := loss_open was
  have done := compare_lossStays (heard_start few (n := n)) (n := n) (prev := some before) entered
    (loss_entered leads first)
  have last : (b.hearStation n (some before) now).faults.entryOf (lossKey n f) = _ := done
  rw [heard_rank (n := n) (k := lossKey n f) rfl, found, Option.map_some, Option.map_some, if_pos stands] at last
  exact ⟨_, (settleList_entryOf _ _).trans (by rw [last, Option.map_some])⟩

/-- R190: a loss that ended is cleared. -/
theorem heard_lossGone {f : LampFn} {d : Circ} (calm : ∀ c, ¬ now.lostAt f c) (was : before.openAt f d) :
    ((b.hearStation n (some before) now).settleList.faults.entryOf (lossKey n f)).all
      (fun x => x.state == .cleared) = true := by
  obtain ⟨a, m, entered⟩ := loss_open was
  obtain ⟨u, -, -, done⟩ := compare_lossGone (heard_start few (n := n)) (n := n) (prev := some before) entered
    (loss_none calm)
  have last : (b.hearStation n (some before) now).faults.entryOf (lossKey n f) = _ := done
  rw [settleList_entryOf, last, Option.all_map]
  exact clear_entryOf u _

/-- R190: a loss that became SHADOWED is cleared and re-attributed (DEDUCED, log entry 24). -/
theorem heard_lossShadowed (law : b.listLaw = true) {f : LampFn} {c d : Circ} (lost : now.lostAt f c)
    (closed : ∀ c, ¬ now.openAt f c) (was : before.openAt f d) {y : Entry}
    (found : b.faults.entryOf (lossKey n f) = some y) (stands : y.state ≠ .cleared) (unacked : y.acked = false) :
    (b.hearStation n (some before) now).settleList.faults.entryOf (lossKey n f) = some { y with
      state := .cleared, rankCur := b.roster.slotOf n, extent := 0
      details := { y.details with attribution := some .shadowed, front := none } } := by
  obtain ⟨a, m, entered⟩ := loss_open was
  obtain ⟨u, within, stood, done⟩ := compare_lossShadowed (heard_start few (n := n)) (n := n) (prev := some before)
    entered (loss_shadowed lost closed)
  have last : (b.hearStation n (some before) now).faults.entryOf (lossKey n f) = _ := done
  rw [clear_entryOf_own (within.law law), stood, heard_rank (n := n) (k := lossKey n f) rfl, found, Option.map_some,
    Option.bind_some, afterClear_unacked (e := { y with rankCur := b.roster.slotOf n }) stands unacked,
    Option.map_some] at last
  exact settleList_entryOf_zero last (.inr (.inr nofun))

/-- R190: a loss that neither report enters is left. -/
theorem heard_lossLeft {f : LampFn} (closed : ∀ c, ¬ now.openAt f c) (was : ∀ c, ¬ before.openAt f c) :
    ((b.hearStation n (some before) now).settleList.faults.entryOf (lossKey n f)).map
        (fun x => (x.state, x.acked, x.occurrences, x.details)) =
      (b.faults.entryOf (lossKey n f)).map fun x => (x.state, x.acked, x.occurrences, x.details) := by
  have done := compare_lossLeft (heard_start few (n := n)) (n := n) (prev := some before) (loss_closed was)
    (loss_closed closed)
  have last : (b.hearStation n (some before) now).faults.entryOf (lossKey n f) = _ := done
  rw [settleList_entryOf, last, heard_rank (n := n) (k := lossKey n f) rfl, Option.map_map, Option.map_map]
  rfl

end

/-! ## Entries of a ranked peer -/

theorem confirmedEntry_standing (b : State) (k : Key) (d : Details) (claim : Option Rank) {e : Entry}
    (stands : e.state ≠ .cleared) :
    b.confirmedEntry k d claim (some e) = { e with state := .active, details := d } := if_neg stands

section
variable {b : State} {k : Key} {r : Rank} (peer : k.serial ≠ b.cfg.serial) (slot : b.roster.slotOf k.serial = some r)
  (clash : k.kind ≠ .rankClash) (silent : k.kind ≠ .unitSilent)
include peer slot clash silent

theorem confirmedEntry_new (d : Details) (claim : Option Rank) : b.confirmedEntry k d claim none =
    ⟨k, severityOf k.kind k.fn, .active, false, 1, b.trainSeconds, some r, some r, d, 0⟩ := by
  have ranks := ranksFor_peer peer clash silent claim
  rw [State.confirmedEntry, State.newEntry, ranks, slot]

theorem confirmedEntry_cleared (d : Details) (claim : Option Rank) {e : Entry} (cleared : e.state = .cleared) :
    b.confirmedEntry k d claim (some e) = { e with
      state := .active, acked := false, occurrences := min 255 (e.occurrences + 1), rankConf := some r
      rankCur := some r, details := d } := by
  have ranks := ranksFor_peer peer clash silent claim
  rw [State.confirmedEntry, if_pos cleared, ranks, slot]
  rfl

end

/-- R186, R187, R189: the keys of a report, circuit by circuit. -/
theorem mem_keys_iff (x : Report) (n : Serial) (k : Key) :
    ((∃ (c : Circ) (y : FaultKind), x.circuits[c].confirmed = some y ∧ y ≠ .noSupply ∧
        k = ⟨n, y, some c, some x.circuits[c].fn⟩) ∨
      (∃ c : Circ, x.circuits[c].confirmed = some .noSupply ∧ x.circuits[c].attribution ≠ some .shadowed ∧
        k = ⟨n, .noSupply, none, some x.circuits[c].fn⟩)) ↔ k ∈ x.keys n := by
  rw [mem_keys]
  refine or_congr (exists_congr fun c => keyAt_eq.symm) ⟨fun ⟨c, lost, opened, eq⟩ => ?_, fun ⟨f, c, opened, eq⟩ => ?_⟩
  · exact ⟨_, c, ⟨⟨rfl, lost⟩, opened⟩, eq⟩
  · obtain ⟨⟨rfl, lost⟩, other⟩ := opened
    exact ⟨c, lost, other, eq⟩

end Sys2Proof.Machine
end

section
/-! SUPPORT. A STATUS of a ranked peer and the head's fault list, clause by clause (R157, R172, R186 to R193). -/

namespace Sys2Proof.Machine

/-! ## A rank clash that begins (R192) -/

/-- R178, R179, R192: the entry RANK CLASH as it is made. -/
theorem rankClashInput_made {s : State} {n : Serial} (fresh : s.faults.entryOf (stationKey n .rankClash) = none)
    (room : s.faults.entries.length < 32) (claim : Option Rank) :
    ((s.rankClashInput n true claim).faults.entryOf (stationKey n .rankClash)).map
      (fun x => (x.state, x.severity, x.occurrences, x.rankConf, x.rankCur)) =
        some (.active, .major, 1, claim, none) := by
  have made := confirm_entryOf_new fresh room .empty claim
  show ((s.confirm (stationKey n .rankClash) .empty claim).settleList.faults.entryOf _).map _ = _
  rw [settleList_entryOf, made]
  rfl

theorem rankClashInput_length (s : State) (n : Serial) (claim : Option Rank) :
    (s.rankClashInput n true claim).faults.entries.length ≤ s.faults.entries.length + 1 :=
  (settleList_length _).le.trans (confirm_length s _ _ _)

theorem statusInput_new {s : State} {n : Serial} (peer : n ≠ s.cfg.serial) (rep : Report) :
    s.statusInput n none rep .new = (s.joinStation n rep).settleList := if_neg peer

/-- R189, R192: in either order a station whose claim begins a clash has its RANK CLASH. -/
theorem clash_entry {s : State} {n : Serial} {r : Rank} {rep : Report} (peer : n ≠ s.cfg.serial)
    (unplaced : s.roster.slotOf n = none) (fresh : s.faults.entryOf (stationKey n .rankClash) = none)
    (few : s.faults.entries.length < 16) (t : State)
    (either : t = (s.rankClashInput n true (some r)).statusInput n none rep .new ∨
      t = (s.statusInput n none rep .new).rankClashInput n true (some r)) :
    (t.faults.entryOf (stationKey n .rankClash)).map
      (fun x => (x.state, x.severity, x.occurrences, x.rankConf, x.rankCur)) =
        some (.active, .major, 1, some r, none) := by
  rcases either with rfl | rfl
  · have made := rankClashInput_made fresh (few.trans (by decide)) (some r)
    have only := rankClashInput_listOnly s n true (some r)
    have length := (rankClashInput_length s n (some r)).trans few
    rw [statusInput_new (only.cfg ▸ peer), settleList_entryOf, joined_clash length, only.roster, unplaced]
    obtain ⟨x, found, tuple⟩ := Option.map_eq_some_iff.1 made
    simp only [Prod.mk.injEq] at tuple
    obtain ⟨state, severity, occurrences, conf, -⟩ := tuple
    rw [found]
    simp [state, severity, occurrences, conf]
  · rw [statusInput_new peer]
    have within := (joinStation_within (.start (Nat.le_of_lt_succ few)) n rep).settleList
    refine rankClashInput_made ?_ (Nat.lt_succ_of_le within.length) _
    rw [settleList_entryOf, joined_clash few.le, fresh]
    rfl

/-! ## A station that returns (R189) -/

section
variable {b : State} {n : Serial} {r : Rank} {rep : Report} (few : b.faults.entries.length ≤ 16)
  (slot : b.roster.slotOf n = some r) {k : Key} {x : Entry} (found : b.faults.entryOf k = some x)
  (own : k.serial = n) (silent : k.kind ≠ .unitSilent) (clash : k.kind ≠ .rankClash)
include few slot found own silent clash

theorem joined_reported (peer : n ≠ b.cfg.serial) (shown : k ∈ rep.keys n) :
    (x.state ≠ .cleared → ∃ y, (b.joinStation n rep).settleList.faults.entryOf k = some y ∧ y.state = .active ∧
      y.acked = x.acked ∧ y.occurrences = x.occurrences ∧ y.rankConf = x.rankConf ∧ y.rankCur = some r) ∧
    (x.state = .cleared → ∃ y, (b.joinStation n rep).settleList.faults.entryOf k = some y ∧ y.state = .active ∧
      y.acked = false ∧ y.occurrences = min 255 (x.occurrences + 1) ∧ y.rankConf = some r ∧ y.rankCur = some r) := by
  obtain ⟨d, m, made⟩ := joined_confirms few shown
  rw [found, Option.map_some, slot] at made
  refine ⟨fun stands => ?_, fun cleared => ?_⟩
  · rw [confirmedEntry_standing b k d none (e := { x with rankCur := some r }) stands] at made
    exact ⟨_, made, rfl, rfl, rfl, rfl, rfl⟩
  · rw [confirmedEntry_cleared (own ▸ peer) (own ▸ slot) clash silent d none (e := { x with rankCur := some r })
      cleared] at made
    exact ⟨_, made, rfl, rfl, rfl, rfl, rfl⟩

theorem joined_unreported (law : b.listLaw = true) (hidden : k ∉ rep.keys n) :
    (x.state ≠ .cleared →
      (x.acked = true → (b.joinStation n rep).settleList.faults.entryOf k = none) ∧
      (x.acked = false → (b.joinStation n rep).settleList.faults.entryOf k = some { x with
        state := .cleared, rankCur := some r, extent := 0 })) ∧
    (x.state = .cleared → (b.joinStation n rep).settleList.faults.entryOf k = some { x with
      rankCur := some r, extent := 0 }) := by
  have after := joined_hidden few law found own silent clash hidden
  rw [slot] at after
  refine ⟨fun stands => ⟨fun acked => ?_, fun unacked => ?_⟩, fun cleared => ?_⟩
  · rw [after, afterClear_acked (e := { x with rankCur := some r }) stands acked]
    rfl
  · rw [after, afterClear_unacked (e := { x with rankCur := some r }) stands unacked]
    rfl
  · rw [after, afterClear_cleared (e := { x with rankCur := some r }) cleared]
    rfl

end

/-! ## Losses and details as the statement names them (R178, R187) -/

/-- R187: the details of a loss are those of circuit c, with the mask of all circuits lost. -/
def Report.Shows (x : Report) (f : LampFn) (c : Circ) (d : Details) : Prop :=
  d.attribution = x.circuits[c].attribution ∧ d.front = x.circuits[c].front ∧
    ∀ e : Circ, (d.mask.getLsbD e.val = true ↔ x.lostAt f e)

theorem lossDetails_shows (x : Report) (f : LampFn) (c : Circ) :
    x.Shows f c (x.lossDetails f x.circuits[c].attribution x.circuits[c].front) :=
  ⟨rfl, rfl, fun e => lossMask_get x f e⟩

theorem circuitDetails_eq (k : FaultKind) (m : Nat) :
    circuitDetails k m = ⟨if k = .lampPartial then m else 0, none, none, 0, none⟩ := by
  unfold circuitDetails
  split <;> rfl

section
variable {b : State} {n : Serial} {r : Rank} {before now : Report} (few : b.faults.entries.length ≤ 16)
  (slot : b.roster.slotOf n = some r)
include few slot

theorem heard_circuitNew (peer : n ≠ b.cfg.serial) {c : Circ} {k : Key} (shown : now.keyAt n c = some k)
    (was : before.keyAt n c ≠ some k) (clash : k.kind ≠ .rankClash) (silent : k.kind ≠ .unitSilent) :
    let t := (b.hearStation n (some before) now).settleList
    let d : Details := ⟨if k.kind = .lampPartial then now.circuits[c].m else 0, none, none, 0, none⟩
    (b.faults.entryOf k = none → (t.faults.entryOf k).map
      (fun x => (x.state, x.acked, x.occurrences, x.first, x.rankConf, x.rankCur, x.details)) =
        some (.active, false, 1, b.trainSeconds, some r, some r, d)) ∧
    (∀ x, b.faults.entryOf k = some x → x.state = .cleared → t.faults.entryOf k = some { x with
      state := .active, acked := false, occurrences := min 255 (x.occurrences + 1), rankConf := some r
      rankCur := some r, details := d, extent := 0 }) ∧
    (∀ x, b.faults.entryOf k = some x → x.state ≠ .cleared → t.faults.entryOf k = some { x with
      state := .active, rankCur := some r, details := d, extent := 0 }) := by
  obtain ⟨y, -, -, own⟩ := keyAt_eq.1 shown
  have serial : k.serial = n := own ▸ rfl
  have after := heard_new few shown was
  rw [slot, circuitDetails_eq] at after
  refine ⟨fun fresh => ?_, fun x found cleared => ?_, fun x found stands => ?_⟩
  · rw [fresh, Option.map_none, confirmedEntry_new (serial ▸ peer) (serial ▸ slot) clash silent] at after
    rw [after]
    rfl
  · rw [found, Option.map_some, confirmedEntry_cleared (serial ▸ peer) (serial ▸ slot) clash silent _ none
      (e := { x with rankCur := some r }) cleared] at after
    exact after
  · rw [found, Option.map_some, confirmedEntry_standing b k _ none (e := { x with rankCur := some r }) stands] at after
    exact after

theorem heard_lossEntered (peer : n ≠ b.cfg.serial) {f : LampFn} {c : Circ} (leads : now.openAt f c)
    (first : ∀ d, d < c → ¬ now.openAt f d) (closed : ∀ d, ¬ before.openAt f d) :
    let t := (b.hearStation n (some before) now).settleList
    (b.faults.entryOf (lossKey n f) = none → ∃ x, t.faults.entryOf (lossKey n f) = some x ∧ x.state = .active ∧
      x.occurrences = 1 ∧ x.rankConf = some r ∧ x.rankCur = some r ∧ now.Shows f c x.details) ∧
    (∀ y, b.faults.entryOf (lossKey n f) = some y → y.state = .cleared → ∃ x, t.faults.entryOf (lossKey n f) = some x ∧
      x.state = .active ∧ x.acked = false ∧ x.occurrences = min 255 (y.occurrences + 1) ∧
      now.Shows f c x.details) := by
  obtain ⟨m, after⟩ := heard_lossNew few (n := n) leads first closed
  refine ⟨fun fresh => ?_, fun y found cleared => ?_⟩
  · rw [fresh, Option.map_none, confirmedEntry_new (k := lossKey n f) peer slot nofun nofun] at after
    exact ⟨_, after, rfl, rfl, rfl, rfl, lossDetails_shows now f c⟩
  · rw [found, Option.map_some, slot, confirmedEntry_cleared (k := lossKey n f) peer slot nofun nofun _ none
      (e := { y with rankCur := some r }) cleared] at after
    exact ⟨_, after, rfl, rfl, rfl, lossDetails_shows now f c⟩

end

/-! ## A slot that is free for its claimant (R150) -/

theorem free_of_vacant {s : State} {n : Serial} {r : Rank} (ranked : s.rank.state ≠ .ranked r)
    (vacant : s.roster.slots[r] = none) : ¬ s.slotTaken n r := by
  rintro (closed | ⟨o, there, -⟩)
  · exact ranked closed
  · cases vacant.symm.trans there

theorem free_of_own {s : State} {n : Serial} {r : Rank} {e : RosterEntry} (ranked : s.rank.state ≠ .ranked r)
    (there : s.roster.slots[r] = some e) (own : e.serial = n) : ¬ s.slotTaken n r := by
  rintro (closed | ⟨o, found, other⟩)
  · exact ranked closed
  · cases there.symm.trans found
    exact other own

theorem onlyAt_empty {x : Roster} (empty : ∀ q : Rank, x.slots[q] = none) (none_ : x.unplaced = []) (n : Serial) :
    x.OnlyAt n none := by
  refine ⟨fun q _ => ?_, fun u there => ?_⟩
  · rw [empty q]
    exact nofun
  · rw [none_] at there
    cases there

/-! ## The clauses -/

section
variable {s : State} {h : RxHeader} {rep : Report} {r : Rank} (head : s.isHead = true)
  (untracked : s.learner.tracked = []) (peer : h.serial ≠ s.cfg.serial) (claim : claimOf h = some r)
include head untracked peer claim

/-- R189: the first STATUS of a station, to an empty roster and an empty list. -/
theorem takeStatus_first {p : BitVec 288} (decoded : Report.decode p = some rep) (free : ¬ s.slotTaken h.serial r)
    (single : s.roster.OnlyAt h.serial none) (noEntries : s.faults.entries = []) :
    (s.takeStatus h rep).balance = s.balance ∧
      (s.takeStatus h rep).roster.slots[r] = some ⟨h.serial, some r, h.head, false, s.now, false, rep⟩ ∧
      (s.events = [] → (s.takeStatus h rep).events.head? = some ⟨.stationJoined h.serial, s.trainSeconds⟩) ∧
      ∀ (c : Circ) (k : FaultKind), rep.circuits[c].confirmed = some k → k ≠ .noSupply →
        ((s.takeStatus h rep).faults.entryOf ⟨h.serial, k, some c, some rep.circuits[c].fn⟩).map
          (fun e => (e.state, e.severity, e.rankConf, e.rankCur, e.first)) =
            some (.active, severityOf k (some rep.circuits[c].fn), some r, some r, s.trainSeconds) := by
  have only : ListOnly (s.seated h rep r) _ :=
    (joinStation_listOnly (s.seated h rep r) h.serial rep).trans (settleList_listOnly _)
  rw [takeStatus_new head untracked peer claim free single]
  refine ⟨only.balance, ?_, fun empty => joined_head? (b := s.seated h rep r) head empty _ _,
    fun c k shown supply => ?_⟩
  · rw [only.roster]
    refine (intoSlot_spec s.roster r (s.entryFrom h rep false)).1.trans ?_
    rw [State.entryFrom, claim]
  · have at_ : rep.keyAt h.serial c = some ⟨h.serial, k, some c, some rep.circuits[c].fn⟩ :=
      keyAt_eq.2 ⟨k, shown, supply, rfl⟩
    obtain ⟨clash, silent⟩ := keyAt_carried decoded at_
    have none_ : (s.seated h rep r).faults.entries = [] := noEntries
    obtain ⟨d, x, made⟩ := joined_confirms (b := s.seated h rep r) (by simp [none_])
      ((mem_keys rep h.serial _).2 (.inl ⟨c, at_⟩))
    have fresh : (s.seated h rep r).faults.entryOf ⟨h.serial, k, some c, some rep.circuits[c].fn⟩ = none := by
      rw [FaultList.entryOf, none_]
      rfl
    have slot := seated_slotOf s h rep r
    rw [fresh, Option.map_none, confirmedEntry_new (b := s.seated h rep r) peer slot clash silent] at made
    rw [made]
    rfl

/-- R172, R196: a STATUS that is not taken. -/
theorem takeStatus_notTaken {o : RosterEntry} (there : s.roster.slots[r] = some o) (other : o.serial ≠ h.serial)
    (full : 4 ≤ s.roster.unplaced.length) (calm : ∀ u ∈ s.roster.unplaced, u.serial ≠ h.serial) :
    s.takeStatus h rep = { s with
        flags := (s.takeStatus h rep).flags, balance := (s.takeStatus h rep).balance
        faults := (s.takeStatus h rep).faults, warn := (s.takeStatus h rep).warn } ∧
      (s.takeStatus h rep).flags = { s.flags with rosterFull := true } ∧
      (s.takeStatus h rep).balance = { s.balance with unlistedAt := some (s.now + 1500) } ∧
      (s.takeStatus h rep).faults.overflow = s.faults.overflow ∧
      (s.takeStatus h rep).faults.entries.map (fun x => { x with extent := 0 }) =
        s.faults.entries.map fun x => { x with extent := 0 } := by
  rw [takeStatus_refused head untracked peer claim (.inr ⟨o, there, other⟩) full calm]
  have faults := settleList_faults s.refused
  refine ⟨?_, settleList_flags _, ?_, ?_, ?_⟩
  · apply state_ext <;> simp [State.noteUnlisted, State.refused]
  · show { s.refused.settleList.balance with unlistedAt := some (s.refused.settleList.now + 1500) } = _
    rw [settleList_balance, State.now, settleList_ticks]
    rfl
  · have overflow := congrArg FaultList.overflow faults
    exact overflow
  · show List.map _ s.refused.settleList.faults.entries = _
    rw [faults]
    show List.map _ (List.map _ _) = _
    rw [List.map_map]
    rfl

/-- R190: a STATUS that repeats the last report. -/
theorem takeStatus_repeated (ranked : s.rank.state ≠ .ranked r) {e : RosterEntry}
    (there : s.roster.slots[r] = some e) (own : e.serial = h.serial) (single : s.roster.OnlyAt h.serial (some r))
    (same : e.report = rep) :
    (s.takeStatus h rep).events = s.events ∧ (s.takeStatus h rep).flags = s.flags ∧
      (s.takeStatus h rep).faults.entries.map (fun x => (x.key, x.severity, x.state, x.acked, x.occurrences, x.first)) =
        s.faults.entries.map fun x => (x.key, x.severity, x.state, x.acked, x.occurrences, x.first) := by
  rw [takeStatus_refreshed head untracked peer claim (free_of_own ranked there own) single there own, same]
  have quiet := hearStation_same (s.seated h rep r) h.serial rep
  exact ⟨quiet.events, quiet.flags, quiet.kept_six.trans (setRanks_kept _ _ _)⟩

/-- R157, R190: a STATUS that repeats the last report from another slot. -/
theorem takeStatus_movedSame (ranked : s.rank.state ≠ .ranked r) {q : Rank} {e : RosterEntry} (ne : q ≠ r)
    (there : s.roster.slots[q] = some e) (own : e.serial = h.serial) (same : e.report = rep)
    (vacant : s.roster.slots[r] = none) (single : s.roster.OnlyAt h.serial (some q)) (empty : s.events = []) :
    (s.takeStatus h rep).faults.entries.map (fun x => (x.key, x.severity, x.state, x.acked, x.occurrences, x.first)) =
        s.faults.entries.map (fun x => (x.key, x.severity, x.state, x.acked, x.occurrences, x.first)) ∧
      (s.takeStatus h rep).events = [⟨.rankChanged h.serial, s.trainSeconds⟩] ∧
      ∀ x ∈ (s.takeStatus h rep).faults.entries, x.key.serial = h.serial → x.rankCur = some r := by
  rw [takeStatus_moved head untracked peer claim (free_of_vacant ranked vacant) ne single there own, same]
  have quiet := hearStation_same (s.seated h rep r) h.serial rep
  have only : ListOnly (s.seated h rep r) _ := (setRanks_listOnly _ _ _).trans quiet.only
  have events : ((s.seated h rep r).hearStation h.serial (some rep) rep).settleList.events = [] :=
    quiet.events.trans empty
  refine ⟨?_, ?_, fun x listed mine => ?_⟩
  · rw [raise_faults]
    exact quiet.kept_six.trans (setRanks_kept _ _ _)
  · rw [raise_events (only.isHead.trans head) (by rw [events, List.length_nil]; decide), events, only.trainSeconds]
    rfl
  · rw [raise_faults] at listed
    obtain ⟨y, stood, key, rank⟩ := quiet.mem listed
    obtain ⟨z, -, rfl⟩ := List.mem_map.1 stood
    have ownKey : z.key.serial = h.serial := by
      rw [← mine, ← key]
      split <;> rfl
    rw [← rank, if_pos ownKey]
    exact seated_slotOf s h rep r

/-- R192: a claim to a slot that another serial holds. -/
theorem takeStatus_contested {o : RosterEntry} (there : s.roster.slots[r] = some o) (other : o.serial ≠ h.serial)
    (room : s.roster.unplaced.length < 4) (single : s.roster.OnlyAt h.serial none)
    (fresh : s.faults.entryOf (stationKey h.serial .rankClash) = none) (few : s.faults.entries.length < 16) :
    ((s.takeStatus h rep).roster.unplaced.getLast?.map RosterEntry.clash) = some true ∧
      ((s.takeStatus h rep).faults.entryOf (stationKey h.serial .rankClash)).map
        (fun x => (x.state, x.severity, x.occurrences, x.rankConf, x.rankCur)) =
          some (.active, .major, 1, some r, none) := by
  have either := takeStatus_clash (rep := rep) head untracked claim (.inr ⟨o, there, other⟩) room single
  have only : ListOnly (s.clashListed h rep) (s.takeStatus h rep) := by
    rcases either with eq | eq <;> rw [eq]
    · exact (rankClashInput_listOnly _ _ _ _).trans (statusInput_listOnly _ _ _ _ _)
    · exact (statusInput_listOnly _ _ _ _ _).trans (rankClashInput_listOnly _ _ _ _)
  refine ⟨?_, clash_entry (s := s.clashListed h rep) peer (slotsWithout_slotOf _ _ _) fresh few _ either⟩
  rw [only.roster]
  simp [State.clashListed, State.entryFrom]

end

/-! ## The obligation -/

/-- Settles O44: each STATUS is the fault list's input after its placement (`takeStatus_new`, `takeStatus_refreshed`,
`takeStatus_moved`, `takeStatus_refused`, `takeStatus_clash`), and each key is followed through it by itself. -/
theorem statusReachesFaultList : Obligations.StatusReachesFaultList := by
  unfold Obligations.StatusReachesFaultList
  intro h p rep r s head delivers decoded peer claim ranked untracked
  rw [statusTelegram_eq delivers decoded]
  have headHeard : s.heard.isHead = true := head
  have ruled := takeStatus_ruled s.heard h rep
  refine ⟨⟨_, rfl, congrArg Prod.fst ruled, congrArg Prod.snd ruled, takeStatus_settled headHeard untracked h rep⟩,
    fun empty none_ noEntries => ⟨_, rfl, ?_⟩, fun single vacant law few => ⟨_, rfl, ?_⟩,
    fun o there other full calm => ⟨_, rfl, ?_⟩, fun e there own single => ⟨fun same => ⟨_, rfl, ?_⟩,
      fun law few => ⟨_, rfl, ?_⟩⟩, fun q e ne there own same vacant single empty => ⟨_, rfl, ?_⟩,
    fun o there other room single fresh few => ⟨_, rfl, ?_⟩⟩
  · exact takeStatus_first headHeard untracked peer claim decoded (free_of_vacant ranked (empty r))
      (onlyAt_empty empty none_ h.serial) noEntries
  · rw [takeStatus_new headHeard untracked peer claim (free_of_vacant ranked vacant) single]
    have slot := seated_slotOf s.heard h rep r
    have lookup {x : Entry} (listed : x ∈ s.faults.entries) : (s.heard.seated h rep r).faults.entryOf x.key = some x :=
      entryOf_of_mem law listed
    have keys_iff := mem_keys_iff rep h.serial
    dsimp only
    refine ⟨fun x found active => ?_, fun x listed own silent clash => ?_, fun empty stands all => ?_⟩
    · have after := joined_silent (b := s.heard.seated h rep r) (now := rep) few law found active
      rw [slot] at after
      refine ⟨fun acked => ?_, fun unacked => ?_⟩
      · rw [after, afterClear_acked (by simp [active]) acked]
        rfl
      · rw [after, afterClear_unacked (by simp [active]) unacked]
        rfl
    · have reported := joined_reported (b := s.heard.seated h rep r) (rep := rep) few slot (lookup listed) own silent
        clash peer
      have unreported := joined_unreported (b := s.heard.seated h rep r) (rep := rep) few slot (lookup listed) own
        silent clash law
      exact ⟨fun up shown => (reported ((keys_iff _).1 shown)).1 up,
        fun cleared shown => (reported ((keys_iff _).1 shown)).2 cleared,
        fun up hidden => (unreported (mt (keys_iff _).2 hidden)).1 up,
        fun cleared hidden => (unreported (mt (keys_iff _).2 hidden)).2 cleared⟩
    · refine joined_events (b := s.heard.seated h rep r) few head law empty (fun k shown => ?_)
        fun x listed own up => (keys_iff _).1 (all x listed own up)
      obtain ⟨x, listed, rfl, up⟩ := stands k ((keys_iff _).2 shown)
      exact ⟨x, lookup listed, up⟩
  · obtain ⟨frame, flags, balance, overflow, entries⟩ :=
      takeStatus_notTaken (rep := rep) headHeard untracked peer claim there other full calm
    have link : (s.heard.takeStatus h rep).link = s.heard.link := by rw [frame]
    refine ⟨frame.trans ?_, flags, balance, overflow, entries⟩
    rw [link]
    rfl
  · exact takeStatus_repeated headHeard untracked peer claim ranked there own single same
  · rw [takeStatus_refreshed headHeard untracked peer claim (free_of_own ranked there own) single there own]
    have slot := seated_slotOf s.heard h rep r
    refine ⟨fun c k was not_ => ?_, fun c k shown was => ?_, fun c k was shown x found stands => ?_,
      fun f => ⟨fun c leads closed => ?_, fun c d y leads was found active => ?_, fun d calm was => ?_,
        fun c d y lost closed was found active unacked => ?_, fun closed was => ?_⟩⟩
    · obtain ⟨cleared, swept⟩ := heard_gone (b := s.heard.seated h rep r) few was not_
      exact ⟨cleared, swept law⟩
    · obtain ⟨clash, silent⟩ := keyAt_carried decoded shown
      exact heard_circuitNew (b := s.heard.seated h rep r) few slot peer shown was clash silent
    · have after := heard_stays (b := s.heard.seated h rep r) few was shown found stands
      rw [slot] at after
      exact after
    · exact heard_lossEntered (b := s.heard.seated h rep r) few slot peer leads.1 leads.2 closed
    · obtain ⟨m, after⟩ := heard_lossStays (b := s.heard.seated h rep r) few leads.1 leads.2 was found
        (by rw [active]; rfl)
      exact ⟨_, after, active, rfl, rfl, lossDetails_shows rep f c⟩
    · exact heard_lossGone (b := s.heard.seated h rep r) few calm was
    · have after := heard_lossShadowed (b := s.heard.seated h rep r) few law lost closed was found (by simp [active])
        unacked
      exact ⟨_, after, rfl, rfl, rfl⟩
    · exact heard_lossLeft (b := s.heard.seated h rep r) few closed was
  · exact takeStatus_movedSame headHeard untracked peer claim ranked ne there own same vacant single empty
  · exact takeStatus_contested headHeard untracked peer claim there other room single fresh few

end Sys2Proof.Machine
end

section
/-! SUPPORT. The threshold of a balance record and the three results of its two sums (R170), and the obligation. -/

namespace Sys2Proof.Machine

/-! ## The threshold -/

/-- R170: up to 3004 the floor of 300 decides. -/
theorem balanceThreshold_of_le {ihead : Nat} (low : ihead ≤ 3004) : balanceThreshold ihead = 300 :=
  max_eq_left (by omega)

/-- R170: the bound by the greatest current of a feed. -/
theorem balanceThreshold_le {ihead : Nat} (reach : ihead ≤ 8190) : balanceThreshold ihead ≤ 819 :=
  max_le (by omega) (by omega)

/-! ## The result -/

section
variable {ihead sum : Nat}

theorem balanceOf_sink (excess : sum + balanceThreshold ihead < ihead) :
    balanceOf ihead sum = .leakage .sink ⟨ihead, sum, (ihead : Int) - sum, balanceThreshold ihead⟩ :=
  if_pos (by dsimp only; omega)

theorem balanceOf_source (deficit : ihead + balanceThreshold ihead < sum) :
    balanceOf ihead sum = .leakage .source ⟨ihead, sum, (ihead : Int) - sum, balanceThreshold ihead⟩ :=
  (if_neg (by dsimp only; omega)).trans (if_pos (by dsimp only; omega))

theorem balanceOf_clean (upper : ihead ≤ sum + balanceThreshold ihead) (lower : sum ≤ ihead + balanceThreshold ihead) :
    balanceOf ihead sum = .clean ⟨ihead, sum, (ihead : Int) - sum, balanceThreshold ihead⟩ :=
  (if_neg (by dsimp only; omega)).trans (if_neg (by dsimp only; omega))

end

/-- R170: the three conditions exclude each other and leave nothing out, so each result tells its condition. -/
theorem balanceOf_eq_iff (ihead sum : Nat) :
    let f : BalanceFigures := ⟨ihead, sum, (ihead : Int) - sum, balanceThreshold ihead⟩
    (balanceOf ihead sum = .leakage .sink f ↔ sum + balanceThreshold ihead < ihead) ∧
    (balanceOf ihead sum = .leakage .source f ↔ ihead + balanceThreshold ihead < sum) ∧
    (balanceOf ihead sum = .clean f ↔
      sum ≤ ihead + balanceThreshold ihead ∧ ihead ≤ sum + balanceThreshold ihead) := by
  dsimp only
  rcases Nat.lt_or_ge (sum + balanceThreshold ihead) ihead with excess | upper
  · rw [balanceOf_sink excess]
    exact ⟨iff_of_true rfl excess, iff_of_false nofun (by omega), iff_of_false nofun (by omega)⟩
  rcases Nat.lt_or_ge (ihead + balanceThreshold ihead) sum with deficit | lower
  · rw [balanceOf_source deficit]
    exact ⟨iff_of_false nofun (by omega), iff_of_true rfl deficit, iff_of_false nofun (by omega)⟩
  · rw [balanceOf_clean upper lower]
    exact ⟨iff_of_false nofun (by omega), iff_of_false nofun (by omega), iff_of_true rfl ⟨lower, upper⟩⟩

/-! ## The obligation -/

/-- Settles O10: the range of the threshold, and the result by which of the three conditions the two sums meet. -/
theorem balanceResultOfTwoSums : Obligations.BalanceResultOfTwoSums := by
  intro ihead sum
  exact ⟨balanceThreshold_of_le, balanceThreshold_le, balanceOf_eq_iff ihead sum⟩

end Sys2Proof.Machine
end

section
/-! SUPPORT. The law of the fault list (R177, R183) under every input of the list (R180) and every acknowledgement
(R194), under every row, and under a step. -/

namespace Sys2Proof.Machine

/-! ## The relation -/

/-- R177, R183: the law of the fault list passes from one state to another. -/
def ListPasses (s t : State) : Prop := s.listLaw = true → t.listLaw = true

theorem ListPasses.same {s t : State} (h : t.faults = s.faults) : ListPasses s t := (listLaw_congr h).trans

theorem ListPasses.refl (s : State) : ListPasses s s := id

theorem ListPasses.trans {s t u : State} (h : ListPasses s t) (g : ListPasses t u) : ListPasses s u := g ∘ h

/-- What comes before leaves the list as it is. -/
theorem ListPasses.after {s t u : State} (h : ListPasses t u) (before : t.faults = s.faults) : ListPasses s u :=
  (ListPasses.same before).trans h

/-- What follows leaves the list as it is. -/
theorem ListPasses.andSame {s t u : State} (h : ListPasses s t) (after : u.faults = t.faults) : ListPasses s u :=
  h.trans (.same after)

theorem ListPasses.foldl {α : Type} {f : State → α → State} (h : ∀ s a, ListPasses s (f s a)) (l : List α) (s : State) :
    ListPasses s (l.foldl f s) := by
  induction l generalizing s with
  | nil => exact .refl s
  | cons a l ih => exact (h s a).trans (ih _)

/-- A row that acts only where its condition holds. -/
theorem ListPasses.ite {s t : State} {p : Prop} [Decidable p] (h : ListPasses s t) :
    ListPasses s (if p then t else s) := by
  split
  · exact h
  · exact .refl s

/-- R180: extents and WARN follow every input. -/
theorem ListPasses.settled {s t : State} (h : ListPasses s t) : ListPasses s t.settleList :=
  fun law => settleList_listLaw (h law)

theorem confirm_listPasses (s : State) (k : Key) (d : Details) (claim : Option Rank) :
    ListPasses s (s.confirm k d claim) := fun law => confirm_listLaw law k d claim

theorem clear_listPasses (s : State) (k : Key) : ListPasses s (s.clear k) := fun law => clear_listLaw law k

theorem detail_listPasses (s : State) (k : Key) (g : Details → Details) : ListPasses s (s.detail k g) :=
  fun law => detail_listLaw law k g

/-! ## The head's own sources (R184, R185, R192) -/

theorem headConfirmed_listPasses (s : State) (c : Circ) (k : FaultKind) : ListPasses s (s.headConfirmed c k) := by
  unfold State.headConfirmed
  dsimp only
  split
  · split
    · exact detail_listPasses _ _ _
    · exact confirm_listPasses _ _ _ _
  · exact confirm_listPasses _ _ _ _

theorem headCleared_listPasses (s : State) (c : Circ) (k : FaultKind) : ListPasses s (s.headCleared c k) := by
  unfold State.headCleared
  dsimp only
  split
  · split
    · exact (detail_listPasses _ _ _).trans (clear_listPasses _ _)
    · exact detail_listPasses _ _ _
  · exact clear_listPasses _ _

theorem headOutcome_listPasses (c : Circ) (s : State) (o : FilterOutcome) : ListPasses s (State.headOutcome c s o) := by
  refine ListPasses.settled ?_
  cases o with
  | confirmed k => exact headConfirmed_listPasses _ _ _
  | cleared k => exact headCleared_listPasses _ _ _
  | detailsChanged k => exact .refl s
  | refreshed k => exact .refl s

theorem balanceOutcome_listPasses (f : LampFn) (sign : Option Sign) (s : State) (o : FilterOutcome) :
    ListPasses s (State.balanceOutcome f sign s o) := by
  refine ListPasses.settled ?_
  cases o with
  | confirmed k => exact confirm_listPasses _ _ _ _
  | cleared k => exact clear_listPasses _ _
  | detailsChanged k => exact detail_listPasses _ _ _
  | refreshed k => exact .refl s

theorem headClashInput_listPasses (s : State) (begins : Bool) : ListPasses s (s.headClashInput begins) := by
  refine ListPasses.settled ?_
  split
  · exact confirm_listPasses _ _ _ _
  · exact clear_listPasses _ _

theorem rankClashInput_listPasses (s : State) (n : Serial) (begins : Bool) (claim : Option Rank) :
    ListPasses s (s.rankClashInput n begins claim) := by
  refine ListPasses.settled ?_
  split
  · exact confirm_listPasses _ _ _ _
  · exact clear_listPasses _ _

/-! ## A STATUS on the head, and stations lost (R186 to R191) -/

/-- R189, R190: the steps of a STATUS are among those that `Within` follows. -/
theorem statusInput_listPasses (s : State) (n : Serial) (prev : Option Report) (rep : Report) (out : Placement) :
    ListPasses s (s.statusInput n prev rep out) := by
  have start : Within s s.faults.entries.length s := .start le_rfl
  have heard : ListPasses s (s.hearStation n prev rep) :=
    (comparePasses_within (start.setRanks n (s.roster.slotOf n)) n prev rep).law
  unfold State.statusInput
  split
  · exact ListPasses.settled (.refl s)
  · refine ListPasses.settled ?_
    cases out with
    | new => exact (joinStation_within start n rep).law
    | refreshed => exact heard
    | moved src dst => exact heard
    | notTaken => exact .refl s

theorem clashChange_listPasses (s : State) (before : Roster) (n : Serial) (claim : Option Rank) :
    ListPasses s (s.clashChange before n claim) := by
  unfold State.clashChange
  split
  · exact rankClashInput_listPasses _ _ _ _
  · exact rankClashInput_listPasses _ _ _ _
  all_goals exact .refl s

theorem listStatus_listPasses (s : State) (before : Roster) (h : RxHeader) (prev : Option Report) (rep : Report)
    (out : Placement) : ListPasses s (s.listStatus before h prev rep out) := by
  unfold State.listStatus
  split
  · exact statusInput_listPasses _ _ _ _ _
  · refine ListPasses.after (t := { s with free := s.free + 1 }) ?_ rfl
    dsimp only
    split
    · exact (clashChange_listPasses _ _ _ _).trans (statusInput_listPasses _ _ _ _ _)
    · exact (statusInput_listPasses _ _ _ _ _).trans (clashChange_listPasses _ _ _ _)

theorem noteUnlisted_faults (s : State) (out : Placement) : (s.noteUnlisted out).faults = s.faults := by
  cases out <;> rfl

theorem untrack_faults (s : State) (n : Serial) (status : LearnDone) : (s.untrack n status).faults = s.faults :=
  raise_faults _ _

theorem learnStatus_faults (s : State) (n : Serial) (rep : Report) (out : Placement) :
    (s.learnStatus n rep out).faults = s.faults := by
  have tracked : (s.trackLearning n rep).faults = s.faults := by
    unfold State.trackLearning
    repeat' split
    · rfl
    · rfl
    · exact untrack_faults _ _ _
    all_goals rfl
  cases out with
  | notTaken => rfl
  | new => exact tracked
  | refreshed => exact tracked
  | moved src dst => exact tracked

/-- R123, R156: of the readers of a STATUS the fault list alone changes the list. -/
theorem takeStatus_listPasses (h : RxHeader) (s : State) (rep : Report) : ListPasses s (s.takeStatus h rep) := by
  unfold State.takeStatus
  dsimp only
  split
  · refine ListPasses.andSame ?_ (learnStatus_faults _ _ _ _)
    refine ListPasses.andSame ?_ (raiseRankChanged_faults _ _ _)
    refine ListPasses.andSame ?_ (noteUnlisted_faults _ _)
    exact (listStatus_listPasses (s.rosterStatus h rep) _ _ _ _ _).after rfl
  · exact .same rfl

theorem loseStation_listPasses (s : State) (n : Serial) (r : Rank) : ListPasses s (s.loseStation n r) :=
  fun law => loseStation_listLaw law n r

theorem expireSlot_listPasses (s : State) (r : Rank) (e : RosterEntry) : ListPasses s (s.expireSlot r e) := by
  have lost : ListPasses s ((s.slotEmptied r).loseStation e.serial r) :=
    (loseStation_listPasses (s.slotEmptied r) _ _).after rfl
  unfold State.expireSlot
  dsimp only
  split
  · exact lost.andSame (trackExpiry_faults _ _)
  · exact .same rfl

theorem expireUnplaced_listPasses (s : State) (i : Nat) (e : RosterEntry) : ListPasses s (s.expireUnplaced i e) := by
  have dropped : ListPasses s ((s.unplacedLess i).clashDropped e) :=
    (ListPasses.ite (rankClashInput_listPasses (s.unplacedLess i) _ _ _)).after rfl
  unfold State.expireUnplaced
  dsimp only
  split
  · exact dropped.andSame (trackExpiry_faults _ _)
  · exact .same rfl

/-! ## Acknowledgement (R194) -/

/-- R177, R183: what the law of the list reads of an entry. -/
def Entry.counted (e : Entry) : Key × Nat := (e.key, e.occurrences)

theorem counted_listLaw {s t : State} (law : s.listLaw = true)
    (fewer : (t.faults.entries.map Entry.counted).Sublist (s.faults.entries.map Entry.counted))
    (overflow : t.faults.overflow = s.faults.overflow) : t.listLaw = true := by
  obtain ⟨length, keys, tally, counts⟩ := (listLaw_iff s).1 law
  have keysOf (l : List Entry) : l.map Entry.key = (l.map Entry.counted).map Prod.fst := by
    rw [List.map_map]
    rfl
  refine (listLaw_iff t).2 ⟨?_, ?_, overflow ▸ tally, fun e listed => ?_⟩
  · simpa using fewer.length_le.trans (by simpa using length)
  · rw [keysOf] at keys ⊢
    exact (fewer.map Prod.fst).nodup keys
  · obtain ⟨x, stood, same⟩ := List.mem_map.1 (fewer.subset (List.mem_map_of_mem listed))
    have occurrences : x.occurrences = e.occurrences := congrArg Prod.snd same
    exact occurrences ▸ counts x stood

/-- R194: an ACTIVE entry is acknowledged, and any other leaves the list. -/
theorem acknowledge_active {e : Entry} (active : e.state = .active) : e.acknowledge = some { e with acked := true } := by
  simp [Entry.acknowledge, active]

theorem acknowledge_idle {e : Entry} (idle : e.state ≠ .active) : e.acknowledge = none := by
  unfold Entry.acknowledge
  cases state : e.state with
  | active => exact absurd state idle
  | cleared => rfl
  | orphaned => rfl

theorem acknowledge_counted (l : List Entry) :
    ((l.filterMap Entry.acknowledge).map Entry.counted).Sublist (l.map Entry.counted) := by
  induction l with
  | nil => exact .slnil
  | cons e l ih =>
    by_cases active : e.state = .active
    · rw [List.filterMap_cons_some (acknowledge_active active)]
      exact ih.cons_cons _
    · rw [List.filterMap_cons_none (acknowledge_idle active)]
      exact ih.cons _

/-- R194: the list after the entry at index i is acknowledged. -/
theorem ackAt_faults (s : State) (i : Nat) : (s.ackAt i).faults = { s.faults with
    entries := s.faults.entries.take i ++ ((s.faults.entries.drop i).take 1).filterMap Entry.acknowledge ++
      s.faults.entries.drop (i + 1) } := by
  unfold State.ackAt
  dsimp only
  rcases deriveWarn_cases { s with faults := { s.faults with
      entries := s.faults.entries.take i ++ ((s.faults.entries.drop i).take 1).filterMap Entry.acknowledge ++
        s.faults.entries.drop (i + 1) } } with ⟨_, e⟩ | ⟨_, e⟩ <;> rw [e]

theorem ackAt_listPasses (s : State) (i : Nat) : ListPasses s (s.ackAt i) := by
  have parts : s.faults.entries =
      s.faults.entries.take i ++ (s.faults.entries.drop i).take 1 ++ s.faults.entries.drop (i + 1) := by
    rw [List.append_assoc, ← List.drop_drop, List.take_append_drop, List.take_append_drop]
  refine fun law => counted_listLaw law ?_ (by rw [ackAt_faults])
  conv_rhs => rw [parts]
  rw [ackAt_faults]
  simp only [List.map_append]
  exact ((List.Sublist.refl _).append (acknowledge_counted _)).append (List.Sublist.refl _)

/-! ## Judgement and the write engine -/

theorem handSample_faults (s : State) (c : Circ) (sample : Nat) : (s.handSample c sample).faults = s.faults := by
  rcases handSample_cases s c sample with ⟨_, e⟩ | ⟨_, _, _, e⟩ | ⟨_, _, _, e⟩ <;> rw [e]
  · rfl
  · unfold State.finishLearning
    dsimp only
    split
    · exact startWrite_faults _
    · rfl

theorem applyFilter_listPasses (s : State) (c : Circ) (v : Verdict) : ListPasses s (s.applyFilter c v) := by
  unfold State.applyFilter
  dsimp only
  split
  · exact (ListPasses.foldl (headOutcome_listPasses c) _ _).after rfl
  · exact .same rfl

theorem applyVerdict_listPasses (s : State) (c : Circ) (v : Option Verdict) : ListPasses s (s.applyVerdict c v) := by
  rcases applyVerdict_cases s c v with e | ⟨_, _, _, _, e⟩ | ⟨_, _, _, _, _, e⟩ <;> rw [e]
  · exact .refl s
  · exact applyFilter_listPasses _ _ _
  · exact (applyFilter_listPasses _ _ _).andSame (handSample_faults _ _ _)

theorem formBalance_listPasses (s : State) (c : Circ) (r : Rec) (clean : Bool) :
    ListPasses s (s.formBalance c r clean) := by
  rcases formBalance_cases s c r clean with e | ⟨_, _, _, e⟩ <;> rw [e]
  · exact .refl s
  · unfold State.keepBalance
    dsimp only
    split
    · exact .same rfl
    · exact (ListPasses.foldl (balanceOutcome_listPasses _ _) _ _).after rfl

theorem judge_listPasses (s : State) (c : Circ) (r : Rec) : ListPasses s (s.judge c r) := by
  unfold State.judge
  dsimp only
  refine ListPasses.trans ?_ (formBalance_listPasses _ _ _ _)
  refine ListPasses.andSame ?_ (setC_faults _ _ _)
  exact (applyVerdict_listPasses _ _ _).after (setC_faults _ _ _)

theorem endWrite_faults (s : State) (w : StoreWrite) (back : List Byte) : (s.endWrite w back).faults = s.faults := by
  rw [endWrite_starts, startWrite_faults, written_frame]

theorem storeConfig_faults (block : List Byte) (s : State) : (s.storeConfig block).faults = s.faults := by
  rcases storeConfig_cases block s with ⟨_, e⟩ | ⟨_, _, e⟩ | ⟨_, _, e⟩ <;> rw [e]
  · rfl
  · rfl
  · exact startWrite_faults _

/-! ## The converter, telegrams and the port -/

theorem confirmEdge_faults (s : State) (c : Circ) (vm : Nat) : (s.confirmEdge c vm).faults = s.faults := by
  unfold State.confirmEdge
  dsimp only
  split
  · rfl
  · split
    · exact reevaluatePeriod_faults _ _
    · rfl

theorem takeSpotPair_faults (s : State) (c : Circ) (vm im : Nat) : (s.takeSpotPair c vm im).faults = s.faults := by
  unfold State.takeSpotPair
  split
  · rfl
  · split
    · rw [addSpotPair_frame]
    · rfl

theorem takeCommand_listPasses (h : RxHeader) (s : State) (m : CommandContent) : ListPasses s (s.takeCommand h m) := by
  have clash : (coastEdge s s.clashCommand).faults = s.faults := coastEdge_faults _ _
  unfold State.takeCommand
  dsimp only
  split
  · split
    · exact (headClashInput_listPasses _ _).after clash
    · exact .same clash
  · split
    · split
      · rcases trackCommand_cases s h.serial m with e | e | e <;> rw [e] <;> exact .same rfl
      · exact .same rfl
    · exact .refl s

theorem actOnLearn_listPasses (s : State) (e circuits : Byte) : ListPasses s (s.actOnLearn e circuits) := .same rfl

theorem complete_faults (s : State) (a : Attempt) : (s.complete a).faults = s.faults := by
  have told (s : State) (k : TKind) : (s.tellFree k).faults = s.faults := by
    cases k with
    | query =>
      show s.offerQuery.faults = _
      unfold State.offerQuery
      split
      · rfl
      · exact putSlot_faults _ _ _
    | reading =>
      show s.offerReading.faults = _
      unfold State.offerReading
      split
      · rfl
      · exact putSlot_faults _ _ _
    | command => rfl
    | learn => rfl
    | status => rfl
  unfold State.complete
  dsimp only
  split
  · rfl
  · exact told _ _

theorem arrive_listPasses {α : Type} {consume : State → α → State} (h : ∀ s a, ListPasses s (consume s a))
    (s : State) (k : TKind) (content : Option α) : ListPasses s (s.arrive k content consume) := by
  rcases arrive_cases s k content consume with ⟨_, e⟩ | ⟨_, _, e⟩ | ⟨c, _, _, e⟩ <;> rw [e]
  · exact .same rfl
  · exact .same rfl
  · exact (h _ c).after rfl

theorem atRelease_listPasses {act : State → State} (h : ∀ s, ListPasses s (act s)) (s : State) :
    ListPasses s (s.atRelease act) := by
  rcases atRelease_cases s act with ⟨_, e⟩ | ⟨_, e⟩ | ⟨_, e⟩ | ⟨_, e⟩ <;> rw [e]
  · exact .refl s
  · exact .same rfl
  · exact (h _).after rfl
  · exact (h _).after rfl

theorem headOnly_listPasses {act : State → State} (h : ∀ s, ListPasses s (act s)) (s : State) :
    ListPasses s (State.headOnly act s) := by
  rcases headOnly_cases act s with ⟨_, e⟩ | ⟨_, e⟩ <;> rw [e]
  · exact h s
  · exact .same rfl

theorem popEvent_faults (s : State) : s.popEvent.faults = s.faults := by
  rcases popEvent_cases s with ⟨_, e⟩ | ⟨_, _, _, e⟩ <;> rw [e] <;> rfl

theorem clearFlags_faults (mask : Byte) (s : State) : (s.clearFlags mask).faults = s.faults := rfl

theorem readEntry_faults (index : Byte) (s : State) : (s.readEntry index).faults = s.faults := by
  unfold State.readEntry
  split <;> rfl

theorem ack_listPasses (index : Byte) (n : Serial) (s : State) : ListPasses s (s.ack index n) := by
  rcases ack_cases s index n with ⟨_, e⟩ | ⟨_, _, _, e⟩ | ⟨_, _, _, _, e⟩ <;> rw [e]
  · exact .same rfl
  · exact .same rfl
  · exact (ackAt_listPasses _ _).andSame rfl

theorem ackAll_listPasses (s : State) : ListPasses s s.ackAll :=
  (ListPasses.foldl ackAt_listPasses _ s).andSame rfl

theorem requestLearn_faults (stations circuits : Byte) (s : State) :
    (s.requestLearn stations circuits).faults = s.faults := by
  rcases requestLearn_cases s stations circuits with ⟨_, e⟩ | ⟨_, _, _, e⟩ | ⟨_, _, _, e⟩ <;> rw [e]
  · rfl
  · rfl
  · exact putSlot_faults _ _ _

theorem requestSpot_faults (r : Rank) (c : Circ) (s : State) : (s.requestSpot r c).faults = s.faults := by
  rcases requestSpot_cases s r c with ⟨_, e⟩ | ⟨_, _, _, e⟩ | ⟨_, _, _, e⟩ | ⟨_, _, _, _, _, e⟩ <;> rw [e]
  · rfl
  · exact arbitrate_faults _
  · rfl
  · show (State.queueQuery _ _).faults = _
    unfold State.queueQuery
    split
    · rfl
    · exact putSlot_faults _ _ _

/-- R177: whatever the station was, a start-up reset leaves an empty list. -/
theorem startUp_listPasses (s : State) : ListPasses s s.startUp := by
  have empty : s.startUp.faults = State.reset.faults := by
    rw [startUp_eq]
    rfl
  exact fun _ => (listLaw_congr empty).trans rfl

/-! ## Every row -/

/-- R177, R183: every row passes the law of the list on. -/
theorem exec_listPasses (c : Instr) (s : State) : ∃ t, exec c s = .next t ∧ ListPasses s t := by
  cases c with
  -- The rows that reach the fault list.
  | startUpReset => exact ⟨_, rfl, startUp_listPasses s⟩
  | restart => exact ⟨_, rfl, atRelease_listPasses startUp_listPasses s⟩
  | takenForJudgement c =>
    refine ⟨_, rfl, ?_⟩
    split
    · exact (judge_listPasses _ _ _).andSame (announce_faults _ _)
    · exact .refl s
  | commandTelegram h p =>
    exact ⟨_, rfl, (arrive_listPasses (takeCommand_listPasses h) _ _ _).andSame (announce_faults _ _)⟩
  | statusTelegram h p => exact ⟨_, rfl, arrive_listPasses (takeStatus_listPasses h) _ _ _⟩
  | headClashDeadline =>
    have coast : (coastEdge s s.clashEnded).faults = s.faults := coastEdge_faults _ _
    refine ⟨_, rfl, .ite (ListPasses.andSame ?_ (announce_faults _ _))⟩
    split
    · exact (headClashInput_listPasses _ _).after coast
    · exact .same coast
  | rosterExpiry place =>
    refine ⟨_, rfl, ?_⟩
    split
    · exact .refl s
    · split
      · exact expireSlot_listPasses _ _ _
      · exact expireUnplaced_listPasses _ _ _
  | ack index serial => exact ⟨_, rfl, atRelease_listPasses (headOnly_listPasses (ack_listPasses index serial)) s⟩
  | ackAll => exact ⟨_, rfl, atRelease_listPasses (headOnly_listPasses ackAll_listPasses) s⟩
  -- The converter and the circuits.
  | scanStep => exact ⟨_, rfl, .ite (.same (arbitrate_faults _))⟩
  | pairEnd v i =>
    refine ⟨_, rfl, ?_⟩
    split
    · exact .same (by rw [afterPair_frame, takeSample_frame])
    all_goals exact .refl s
  | supplyConversionEnd v =>
    refine ⟨_, rfl, ?_⟩
    split
    · exact .same ((announce_faults _ _).trans ((release_faults _).trans (coastEdge_faults _ _)))
    all_goals exact .refl s
  | voltageReConversionEnd v =>
    refine ⟨_, rfl, ?_⟩
    split
    · exact .same ((announce_faults _ _).trans ((release_faults _).trans (confirmEdge_faults _ _ _)))
    all_goals exact .refl s
  | spotPairEnd v i =>
    refine ⟨_, rfl, ?_⟩
    split
    · exact .same ((release_faults _).trans (takeSpotPair_faults _ _ _ _))
    all_goals exact .refl s
  | missedFlash c => exact ⟨_, rfl, .ite (.same (reevaluatePeriod_faults _ _))⟩
  | lingerEnd c => exact ⟨_, rfl, .ite (.same (reevaluatePeriod_faults _ _))⟩
  | learnDeadline c => exact ⟨_, rfl, .ite (.same (announce_faults _ _))⟩
  | storeWriteEnd readback =>
    refine ⟨_, rfl, ?_⟩
    split
    · exact .same (endWrite_faults _ _ _)
    · exact .refl s
  -- The timers and the telegrams.
  | intentDebounce line => exact ⟨_, rfl, .ite (.same (by simp))⟩
  | reSendTimer => exact ⟨_, rfl, .ite (.same (queueCommand_faults _))⟩
  | stalenessTimer => exact ⟨_, rfl, .ite (.same (announce_faults _ _))⟩
  | statusTimer => exact ⟨_, rfl, .ite (.same (queueStatus_faults _))⟩
  | holdoff => exact ⟨_, rfl, .ite (.same (queueStatus_faults _))⟩
  | learnTelegram h p =>
    exact ⟨_, rfl, (arrive_listPasses (fun s _ => .ite (actOnLearn_listPasses s _ _)) _ _ _).andSame
      (announce_faults _ _)⟩
  | queryTelegram h p =>
    exact ⟨_, rfl, arrive_listPasses (fun _ _ => .ite (.same (startReading_faults _ _ _))) _ _ _⟩
  | readingTelegram h p =>
    exact ⟨_, rfl, arrive_listPasses (fun _ _ => .ite (.same (by rw [takeReading_frame]))) _ _ _⟩
  | completion =>
    refine ⟨_, rfl, ?_⟩
    split
    · exact .same (complete_faults _ _)
    all_goals exact .refl s
  | burstEnd =>
    refine ⟨_, rfl, ?_⟩
    split
    · exact .refl s
    · exact .same (by simp)
  | rankSilenceDeadline => exact ⟨_, rfl, .ite (.same (by simp))⟩
  | learnTrackerDeadline serial => exact ⟨_, rfl, .ite (.same (untrack_faults _ _ _))⟩
  | queryDeadline =>
    refine ⟨_, rfl, ?_⟩
    split
    · exact .refl s
    · exact .same (raise_faults _ _)
  -- Rows that write fields of a circuit, the link, WARN, the clocks or the rank line's pins, under their conditions.
  | silenceDeadline _ | windowClose _ | heldOnClose _ | candidateStart _ _ _ _ | badTelegram _ | warnBlinkHalf
  | trainSeconds | unlistedDeadline | aloneTimer | sendAttempt _ | yieldLine _ | driveFault _ | cutOff _
  | cutOffRecovery _ | lineStuck _ | lineStuckHoldEnd _ | rearBurstStart | rearPulse | frontHighStretch _
  | frameStart =>
    refine ⟨_, rfl, .same ?_⟩
    repeat' split
    all_goals rfl
  -- The other requests of the port.
  | badFrame | unknown _ | status | tallies => exact ⟨_, rfl, atRelease_listPasses (fun _ => .same (reply_faults _ _ _)) s⟩
  | event => exact ⟨_, rfl, atRelease_listPasses (headOnly_listPasses fun s => .same (popEvent_faults s)) s⟩
  | entry index => exact ⟨_, rfl, atRelease_listPasses (headOnly_listPasses fun s => .same (readEntry_faults index s)) s⟩
  | clearFlags mask =>
    exact ⟨_, rfl, atRelease_listPasses (headOnly_listPasses fun s => .same (clearFlags_faults mask s)) s⟩
  | learn stations circuits =>
    exact ⟨_, rfl, atRelease_listPasses (headOnly_listPasses fun s => .same (requestLearn_faults stations circuits s)) s⟩
  | spot rank circuit =>
    refine ⟨_, rfl, atRelease_listPasses (headOnly_listPasses fun s => .same ?_) s⟩
    split
    · split
      · exact requestSpot_faults _ _ _
      · rfl
    · rfl
  | spotResult =>
    exact ⟨_, rfl, atRelease_listPasses (headOnly_listPasses fun _ => .same (reply_faults _ _ _)) s⟩
  | roster _ | localRead _ =>
    refine ⟨_, rfl, atRelease_listPasses (fun s => .same ?_) s⟩
    split <;> rfl
  | storeConfig block => exact ⟨_, rfl, atRelease_listPasses (fun s => .same (storeConfig_faults block s)) s⟩

/-! ## The step -/

/-- Settles O15: every row passes the law on (`exec_listPasses`), and neither ageing nor the clock touches the list. -/
theorem stepKeepsFaultListLaw : Obligations.StepKeepsFaultListLaw := by
  intro s t law h
  have rows (c : Instr) (u : State) (same : u.faults = s.faults) (e : exec c u = .next t) : t.listLaw = true := by
    obtain ⟨v, ev, pass⟩ := exec_listPasses c u
    cases ev.symm.trans e
    exact pass.after same law
  rcases step_cases s with ⟨c, rest, _, e⟩ | ⟨_, _, e⟩ | ⟨c, _, _, _, _, e⟩ | ⟨_, _, _, e⟩
  · exact rows c { s with pending := rest } rfl (e.symm.trans h)
  · cases e.symm.trans h
    exact law
  · exact rows c s rfl (e.symm.trans h)
  · cases e.symm.trans h
    have clock : s.tick.faults = s.faults := by rw [(tick_frame s).1]
    exact (listLaw_congr clock).trans law

end Sys2Proof.Machine
end

section
/-! SUPPORT. The requests EVENT, CLEAR FLAGS, ACK and ACK ALL on the head (R194, R201, R202, R204). -/

namespace Sys2Proof.Machine

/-- R198, R199: a head's request is acted on at the release of its frame. -/
theorem atRelease_headOnly {s : State} (framed : s.port.frame = some .reply ∨ s.port.frame = some .noRequest)
    (head : s.isHead = true) (act : State → State) :
    ∃ slot, s.atRelease (State.headOnly act) = act (s.released slot) := by
  obtain ⟨slot, release⟩ := atRelease_acts framed (State.headOnly act)
  exact ⟨slot, release.trans (headOnly_head (s := s.released slot) head act)⟩

/-! ## EVENT -/

theorem popEvent_empty {s : State} (empty : s.events = []) : s.popEvent = s.reply codeEmpty [] := by
  unfold State.popEvent
  rw [empty]

theorem popEvent_cons {s : State} {e : Event} {rest : List Event} (queue : s.events = e :: rest) :
    s.popEvent = State.reply { s with events := rest } codeDone e.bytes := by
  unfold State.popEvent
  rw [queue]

/-- R200, R218: an event takes ten bytes of a reply. -/
theorem event_bytes_length (e : Event) : e.bytes.length = 10 := by
  unfold Event.bytes
  cases e.body <;> simp [bytesLE_length, byte1]

/-! ## ACK -/

/-- R204: an index past the list names no entry. -/
theorem ack_noEntry {s : State} {i : Byte} (past : s.faults.entries.length ≤ i.toNat) (n : Serial) :
    s.ack i n = s.reply codeNoEntry [] := by
  unfold State.ack
  rw [List.getElem?_eq_none past]

theorem acknowledge_singleton (e : Entry) : [e].filterMap Entry.acknowledge = e.acknowledge.toList := by
  cases left : e.acknowledge with
  | none => exact List.filterMap_cons_none left
  | some x => exact List.filterMap_cons_some left

/-- R194: an acknowledgement touches the entries of the list and WARN alone. -/
theorem ack_frame (i : Byte) (n : Serial) (s : State) :
    s.ack i n = { s with faults := (s.ack i n).faults, warn := (s.ack i n).warn, port := (s.ack i n).port } ∧
      (s.ack i n).faults.overflow = s.faults.overflow := by
  rcases ack_cases s i n with ⟨_, e⟩ | ⟨_, _, _, e⟩ | ⟨_, _, _, _, e⟩ <;> rw [e]
  · exact ⟨rfl, rfl⟩
  · exact ⟨rfl, rfl⟩
  · rw [reply_faults, ackAt_frame, ackAt_faults]
    exact ⟨rfl, rfl⟩

section
variable {s : State} {pre post : List Entry} {e : Entry} (split : s.faults.entries = pre ++ e :: post)
include split

theorem ack_mismatch {i : Byte} (place : pre.length = i.toNat) {n : Serial} (other : e.key.serial ≠ n) :
    s.ack i n = s.reply codeMismatch [] := by
  have found : s.faults.entries[i.toNat]? = some e := by simp [split, ← place]
  unfold State.ack
  rw [found]
  exact if_neg other

theorem ack_done {i : Byte} (place : pre.length = i.toNat) {n : Serial} (own : e.key.serial = n) :
    s.ack i n = (s.ackAt i.toNat).reply codeDone
      (byte1 e.state.code ++ byte1 (s.ackAt i.toNat).faults.entries.length) := by
  have found : s.faults.entries[i.toNat]? = some e := by simp [split, ← place]
  unfold State.ack
  rw [found]
  exact if_pos own

/-- R194: the entry at its place is acknowledged or leaves, and the others stand. -/
theorem ackAt_entries : (s.ackAt pre.length).faults.entries = pre ++ e.acknowledge.toList ++ post := by
  rw [ackAt_faults]
  dsimp only
  rw [split, ← acknowledge_singleton]
  simp

end

/-! ## ACK ALL -/

/-- R194: one acknowledgement after another touches the list and WARN alone. -/
theorem acks_frame (places : List Nat) (s : State) : places.foldl State.ackAt s =
    { s with faults := (places.foldl State.ackAt s).faults, warn := (places.foldl State.ackAt s).warn } := by
  induction places generalizing s with
  | nil => rfl
  | cons i places ih =>
    rw [List.foldl_cons, ih, ackAt_frame]

theorem ackAll_frame (s : State) :
    s.ackAll = { s with faults := s.ackAll.faults, warn := s.ackAll.warn, port := s.ackAll.port } :=
  congrArg (fun t : State => { t with port := s.ackAll.port }) (acks_frame _ s)

/-- R204: newest first, every place of `old` is acknowledged before the places ahead of it. -/
theorem acks_entries (old : List Entry) {s : State} {new : List Entry} (split : s.faults.entries = old ++ new) :
    ((List.range old.length).reverse.foldl State.ackAt s).faults.entries = old.filterMap Entry.acknowledge ++ new := by
  induction old using List.reverseRecOn generalizing s new with
  | nil => exact split
  | append_singleton old e ih =>
    have next : (s.ackAt old.length).faults.entries = old ++ (e.acknowledge.toList ++ new) := by
      rw [ackAt_entries (split.trans (List.append_cons _ _ _).symm), List.append_assoc]
    rw [List.length_append, List.length_singleton, List.range_succ, List.reverse_append, List.reverse_singleton,
      List.singleton_append, List.foldl_cons, ih next, List.filterMap_append, acknowledge_singleton,
      List.append_assoc]

/-- R194: what acknowledgement leaves of a list. -/
theorem filterMap_acknowledge (l : List Entry) : l.filterMap Entry.acknowledge =
    (l.filter fun e => e.state == .active).map fun e => { e with acked := true } := by
  induction l with
  | nil => rfl
  | cons e l ih =>
    by_cases active : e.state = .active
    · rw [List.filterMap_cons_some (acknowledge_active active), ih, List.filter_cons_of_pos (by simpa using active)]
      rfl
    · rw [List.filterMap_cons_none (acknowledge_idle active), ih, List.filter_cons_of_neg (by simpa using active)]

theorem ackEvery_entries (s : State) : s.ackEvery.faults.entries =
    (s.faults.entries.filter fun e => e.state == .active).map fun e => { e with acked := true } := by
  rw [← filterMap_acknowledge, ← List.append_nil (s.faults.entries.filterMap _)]
  exact acks_entries s.faults.entries (List.append_nil _).symm

/-- Settles O56: each request at the release of its frame. EVENT goes by the queue, ACK by the entry at its index
(`ackAt_entries`), ACK ALL by `ackEvery_entries`; CLEAR FLAGS is its definition, flag by flag. -/
theorem headRequestsAct : Obligations.HeadRequestsAct := by
  intro i n s framed head
  have row (act : State → State) : ∃ slot, Host.Outcome.next (s.atRelease (State.headOnly act)) =
      (.next (act (s.released slot)) : Host.Outcome State Fault Refusal) := by
    obtain ⟨slot, release⟩ := atRelease_headOnly framed head act
    exact ⟨slot, congrArg _ release⟩
  obtain ⟨eventSlot, event⟩ := row State.popEvent
  obtain ⟨flagSlot, flags⟩ := row (State.clearFlags i)
  obtain ⟨ackSlot, ack⟩ := row (State.ack i n)
  obtain ⟨allSlot, all⟩ := row State.ackAll
  refine ⟨fun empty => ?_, fun e rest queue => ?_, ⟨_, flags, rfl, rfl, rfl, rfl, rfl, rfl, rfl, rfl, rfl⟩,
    ⟨_, ack, ?_, (ack_frame i n _).2, fun past => ?_, fun pre e post split place => ?_⟩,
    ⟨_, all, ?_, ackEvery_entries (s.released allSlot), rfl⟩⟩
  · refine event.trans (congrArg _ ?_)
    rw [popEvent_empty (s := s.released eventSlot) empty]
    rfl
  · refine event.trans (congrArg _ ?_)
    rw [popEvent_cons (s := s.released eventSlot) queue, State.reply, replyBytes, event_bytes_length]
    rfl
  · rw [(ack_frame i n _).1]
    rfl
  · rw [ack_noEntry (s := s.released ackSlot) past]
    exact ⟨rfl, rfl⟩
  · have listed : (s.released ackSlot).faults.entries = pre ++ e :: post := split
    have done := ack_done listed place (n := n)
    refine ⟨fun other => ?_, fun own => ?_, fun own active => ?_, fun own idle => ?_⟩
    · rw [ack_mismatch listed place other]
      exact ⟨rfl, rfl⟩
    · rw [done own]
      cases e.state <;> rfl
    · rw [done own, reply_faults, ← place, ackAt_entries listed, acknowledge_active active]
      simp
    · rw [done own, reply_faults, ← place, ackAt_entries listed, acknowledge_idle idle]
      simp
  · rw [ackAll_frame]
    rfl

end Sys2Proof.Machine
end

section
/-! SUPPORT. The list before and after a confirmation and a clear of a key, with every entry at its place (R178, R179,
R181 to R183, R194). -/

namespace Sys2Proof.Machine

/-! ## A list written out -/

/-- The station with these entries. -/
def State.withEntries (s : State) (es : List Entry) : State := { s with faults := { s.faults with entries := es } }

/-- R200: with these entries and one event more. -/
def State.told (s : State) (es : List Entry) (b : EventBody) : State :=
  { s.withEntries es with events := s.events ++ [⟨b, s.trainSeconds⟩] }

theorem withEntries_raise {s : State} (head : s.isHead = true) (room : s.events.length < 16) (es : List Entry)
    (b : EventBody) : (s.withEntries es).raise b = s.told es b := raise_room (s := s.withEntries es) head room b

theorem entryOf_fresh {l : FaultList} {k : Key} (fresh : ∀ e ∈ l.entries, e.key ≠ k) : l.entryOf k = none :=
  List.find?_eq_none.2 fun e listed => by simpa using fresh e listed

section
variable {s : State} {pre post : List Entry} {e : Entry} (split : s.faults.entries = pre ++ e :: post)
  (others : ∀ x ∈ pre ++ post, x.key ≠ e.key)
include split others

theorem entryOf_split : s.faults.entryOf e.key = some e := by
  have ahead : pre.find? (·.key == e.key) = none :=
    List.find?_eq_none.2 fun x there => by simpa using others x (List.mem_append_left _ there)
  unfold FaultList.entryOf
  rw [split, List.find?_append, ahead, Option.none_or, List.find?_cons_of_pos (by simp)]

theorem indexOf_split : s.faults.indexOf e.key = some pre.length := by
  have ahead : pre.findIdx? (·.key == e.key) = none :=
    List.findIdx?_eq_none_iff.2 fun x there => by simpa using others x (List.mem_append_left _ there)
  unfold FaultList.indexOf
  rw [split, List.findIdx?_append, ahead, List.findIdx?_cons]
  simp

theorem mapEntry_split (g : Entry → Entry) : s.mapEntry e.key g = s.withEntries (pre ++ g e :: post) := by
  have same (l : List Entry) (apart : ∀ x ∈ l, x.key ≠ e.key) :
      l.map (fun x => if x.key = e.key then g x else x) = l :=
    (List.map_congr_left fun x there => if_neg (apart x there)).trans (List.map_id _)
  unfold State.mapEntry State.mapEntries
  rw [split, List.map_append, List.map_cons, if_pos rfl, same pre fun x there => others x (List.mem_append_left _ there),
    same post fun x there => others x (List.mem_append_right _ there)]
  rfl

end

/-! ## A key that has no entry (R182, R183) -/

theorem append_told {s : State} (head : s.isHead = true) (room : s.events.length < 16) (es : List Entry) (e : Entry) :
    s.append es e = s.told (es ++ [e]) (.faultConfirmed es.length e.key.serial) := withEntries_raise head room _ _

/-- R183: a full list makes room by its oldest CLEARED entry. -/
theorem makeEntry_evicts {s : State} {pre post : List Entry} {x : Entry} (full : 32 ≤ s.faults.entries.length)
    (split : s.faults.entries = pre ++ x :: post) (cleared : x.state = .cleared)
    (oldest : ∀ y ∈ pre, y.state ≠ .cleared) (e : Entry) : s.makeEntry e = s.append (pre ++ post) e := by
  have evicted : s.faults.entries.eraseP (·.state == .cleared) = pre ++ post := by
    rw [split, List.eraseP_append_right _ fun y ahead => by simpa using oldest y ahead,
      List.eraseP_cons_of_pos (by simp [cleared])]
  rcases makeEntry_cases s e with ⟨fits, _⟩ | ⟨_, _, eq⟩ | ⟨_, without, _⟩
  · exact absurd fits (Nat.not_lt_of_le full)
  · rw [eq, evicted]
  · simp [split, cleared] at without

/-- R183: a full list without a CLEARED entry drops the key. -/
theorem makeEntry_drops {s : State} (full : 32 ≤ s.faults.entries.length)
    (standing : ∀ x ∈ s.faults.entries, x.state ≠ .cleared) (e : Entry) : s.makeEntry e = { s with
      faults := { s.faults with overflow := min 255 (s.faults.overflow + 1) }
      flags := { s.flags with listOverflow := true } } := by
  rcases makeEntry_cases s e with ⟨fits, _⟩ | ⟨_, some_, _⟩ | ⟨_, _, eq⟩
  · exact absurd fits (Nat.not_lt_of_le full)
  · obtain ⟨x, listed, cleared⟩ := List.any_eq_true.1 some_
    exact absurd (by simpa using cleared) (standing x listed)
  · exact eq

theorem confirm_fresh {s : State} {k : Key} (fresh : ∀ e ∈ s.faults.entries, e.key ≠ k) (d : Details)
    (claim : Option Rank) : s.confirm k d claim = s.makeEntry (s.newEntry k d claim) := by
  unfold State.confirm
  rw [entryOf_fresh fresh]

theorem clear_fresh {s : State} {k : Key} (fresh : ∀ e ∈ s.faults.entries, e.key ≠ k) : s.clear k = s := by
  unfold State.clear
  rw [entryOf_fresh fresh]

/-! ## A key that has an entry (R181, R182, R194) -/

section
variable {s : State} {pre post : List Entry} {e : Entry} (split : s.faults.entries = pre ++ e :: post)
  (others : ∀ x ∈ pre ++ post, x.key ≠ e.key)
include split others

theorem confirm_active (active : e.state = .active) (d : Details) (claim : Option Rank) :
    s.confirm e.key d claim = s.withEntries (pre ++ { e with details := d } :: post) := by
  have found := entryOf_split split others
  rcases confirm_cases s e.key d claim with ⟨fresh, _⟩ | ⟨_, _, _, eq⟩ | ⟨x, same, state, _⟩ | ⟨x, same, state, _⟩
  · cases fresh.symm.trans found
  · exact eq.trans (mapEntry_split split others _)
  all_goals
    cases same.symm.trans found
    cases active.symm.trans state

theorem confirm_orphaned (orphaned : e.state = .orphaned) (d : Details) (claim : Option Rank) :
    s.confirm e.key d claim = s.withEntries (pre ++ { e with state := .active, details := d } :: post) := by
  have found := entryOf_split split others
  rcases confirm_cases s e.key d claim with ⟨fresh, _⟩ | ⟨x, same, state, _⟩ | ⟨_, _, _, eq⟩ | ⟨x, same, state, _⟩
  · cases fresh.symm.trans found
  · cases same.symm.trans found
    cases orphaned.symm.trans state
  · exact eq.trans (mapEntry_split split others _)
  · cases same.symm.trans found
    cases orphaned.symm.trans state

theorem confirm_cleared (head : s.isHead = true) (room : s.events.length < 16) (cleared : e.state = .cleared)
    (d : Details) (claim : Option Rank) : s.confirm e.key d claim =
      s.told (pre ++ e.reactivate d (s.ranksFor e.key claim) :: post) (.faultConfirmed pre.length e.key.serial) := by
  have found := entryOf_split split others
  rcases confirm_cases s e.key d claim with ⟨fresh, _⟩ | ⟨x, same, state, _⟩ | ⟨x, same, state, _⟩ | ⟨_, _, _, eq⟩
  · cases fresh.symm.trans found
  · cases same.symm.trans found
    cases cleared.symm.trans state
  · cases same.symm.trans found
    cases cleared.symm.trans state
  · rw [eq, indexOf_split split others, mapEntry_split split others]
    exact withEntries_raise head room _ _

theorem clear_idle (cleared : e.state = .cleared) : s.clear e.key = s := by
  have found := entryOf_split split others
  rcases clear_cases s e.key with ⟨_, eq⟩ | ⟨x, same, stands, _⟩
  · exact eq
  · cases same.symm.trans found
    exact absurd cleared stands

/-- R194: the sweep takes the key's entry where it is CLEARED and acknowledged, and no other. -/
theorem sweep_split : s.sweep e.key =
    s.withEntries (pre ++ (if e.state = .cleared ∧ e.acked = true then [] else [e]) ++ post) := by
  have kept (l : List Entry) (apart : ∀ x ∈ l, x.key ≠ e.key) :
      l.filter (fun x => !(x.key == e.key && x.state == .cleared && x.acked)) = l :=
    List.filter_eq_self.2 fun x there => by simp [apart x there]
  have own : [e].filter (fun x => !(x.key == e.key && x.state == .cleared && x.acked)) =
      if e.state = .cleared ∧ e.acked = true then [] else [e] := by
    by_cases cleared : e.state = .cleared <;> cases acked : e.acked <;> simp [cleared, acked]
  unfold State.sweep
  dsimp only
  rw [split, List.append_cons, List.filter_append, List.filter_append, own,
    kept pre fun x there => others x (List.mem_append_left _ there),
    kept post fun x there => others x (List.mem_append_right _ there)]
  rfl

/-- R182, R194: an entry that stands is CLEARED, and leaves where it was acknowledged. -/
theorem clear_standing (head : s.isHead = true) (room : s.events.length < 16) (stands : e.state ≠ .cleared) :
    s.clear e.key = s.told (pre ++ e.afterClear.toList ++ post) (.faultCleared pre.length e.key.serial) := by
  have found := entryOf_split split others
  rcases clear_cases s e.key with ⟨idle, _⟩ | ⟨_, _, _, eq⟩
  · rw [found] at idle
    exact absurd (by simpa using idle) stands
  · have swept := sweep_split (s := s.told (pre ++ { e with state := .cleared, extent := 0 } :: post)
      (.faultCleared pre.length e.key.serial)) (e := { e with state := .cleared, extent := 0 }) rfl others
    rw [eq, indexOf_split split others, mapEntry_split split others, Option.getD_some, withEntries_raise head room, swept]
    by_cases acked : e.acked = true
    · rw [afterClear_acked stands acked, if_pos ⟨rfl, acked⟩]
      rfl
    · rw [afterClear_unacked stands (Bool.eq_false_of_not_eq_true acked), if_neg fun ⟨_, left⟩ => acked left]
      rfl

end

/-! ## Extents (R193) -/

theorem anchor_iff (x : Entry) (f : LampFn) (a : Rank) : x.anchor f = some a ↔
    x.key.kind = .noSupply ∧ x.key.fn = some f ∧ x.state = .active ∧ x.rankCur = some a ∧
      (x.details.attribution = some .coupling ∨ x.details.attribution = some .unattributed ∨
        x.details.attribution = some .tractor) := by
  unfold Entry.anchor
  rw [Option.ite_none_right_eq_some]
  tauto

theorem shadowed_iff (x : Report) (f : LampFn) : x.shadowed f = true ↔
    (∃ c : Circ, x.circuits[c].fn = f ∧ x.circuits[c].confirmed = some .noSupply) ∧
      ∀ c : Circ, x.circuits[c].fn = f ∧ x.circuits[c].confirmed = some .noSupply →
        x.circuits[c].attribution = some .shadowed := by
  have lost (c : Circ) : x.circuits[c].lost f = true ↔
      x.circuits[c].fn = f ∧ x.circuits[c].confirmed = some .noSupply := by simp [CircuitReport.lost]
  unfold Report.shadowed
  rw [Bool.and_eq_true, all_allCirc, List.any_eq_true]
  simp only [mem_allCirc, true_and, ← lost, Bool.or_eq_true, Bool.not_eq_true', beq_iff_eq, ← Bool.not_eq_true,
    ← imp_iff_not_or]

/-- R161, R193: the nearest slot ahead of which a condition holds, and no other, is found. -/
theorem find_ahead_iff {p : Rank → Bool} {r x : Rank} : (ahead r).find? p = some x ↔
    x < r ∧ p x = true ∧ ∀ y, x < y → y < r → ¬ p y = true := by
  refine ⟨fun found => ?_, fun ⟨before, holds, nearest⟩ => find_ahead before holds nearest⟩
  obtain ⟨holds, nearer, further, e, missed⟩ := List.find?_eq_some_iff_append.1 found
  have descends := ahead_descends r
  have inside : x ∈ ahead r := List.mem_of_find?_eq_some found
  refine ⟨(mem_ahead r x).1 inside, holds, fun y after before => ?_⟩
  have there : y ∈ nearer ++ x :: further := e ▸ (mem_ahead r y).2 before
  rw [e, List.pairwise_append, List.pairwise_cons] at descends
  rcases List.mem_append.1 there with near | far
  · simpa using missed y near
  · rcases List.mem_cons.1 far with own | beyond
    · exact absurd own after.ne'
    · exact absurd (descends.2.1.1 y beyond) (not_lt_of_gt after)

theorem anchorBelow_iff (l : FaultList) (f : LampFn) (x a : Rank) : l.anchorBelow f x = some a ↔
    a < x ∧ (∃ y ∈ l.entries, y.anchor f = some a) ∧
      ∀ b, a < b → b < x → ∀ y ∈ l.entries, y.anchor f ≠ some b := by
  have anchored (b : Rank) : (l.entries.any fun y => y.anchor f == some b) = true ↔
      ∃ y ∈ l.entries, y.anchor f = some b := by simp
  refine find_ahead_iff.trans ?_
  simp only [anchored, not_exists, not_and]

/-- R193: the slots counted into the anchor at rank a. -/
theorem shadowsBehind_spec (s : State) (f : LampFn) (a : Rank) : ∃ behind : List Rank, behind.Nodup ∧
    s.shadowsBehind f a = behind.length ∧ ∀ x, x ∈ behind ↔
      (∃ u, s.roster.slots[x] = some u ∧ u.report.shadowed f = true) ∧ s.faults.anchorBelow f x = some a := by
  refine ⟨_, allCirc_nodup.filter _, rfl, fun x => ?_⟩
  rw [List.mem_filter, Bool.and_eq_true, beq_iff_eq]
  cases s.roster.slots[x] <;> simp [mem_allCirc]

theorem extentOf_noAnchor (s : State) {e : Entry} (h : ∀ f a, e.anchor f ≠ some a) : s.extentOf e = 0 := by
  unfold State.extentOf
  cases e.key.fn with
  | none => rfl
  | some f =>
    dsimp only
    rw [Option.eq_none_iff_forall_ne_some.2 (h f)]

theorem extentOf_anchor (s : State) {e : Entry} {f : LampFn} {a : Rank} (h : e.anchor f = some a) :
    s.extentOf e = min 6 (s.shadowsBehind f a) := by
  obtain ⟨-, fn, -⟩ := (anchor_iff e f a).1 h
  unfold State.extentOf
  rw [fn]
  dsimp only
  rw [h]

/-- R193: the extent of an entry of the list, by the anchors of the list and the reports of the roster. -/
theorem extentOf_spec (s : State) {e : Entry} (listed : e ∈ s.faults.entries) {f : LampFn} {a : Rank}
    (h : e.anchor f = some a) : ∃ behind : List Rank, behind.Nodup ∧ s.extentOf e = min 6 behind.length ∧
      ∀ x, x ∈ behind ↔ a < x ∧ (∃ u, s.roster.slots[x] = some u ∧ u.report.shadowed f = true) ∧
        ∀ b, a < b → b < x → ∀ y ∈ s.faults.entries, y.anchor f ≠ some b := by
  obtain ⟨behind, once, count, counted⟩ := shadowsBehind_spec s f a
  refine ⟨behind, once, by rw [extentOf_anchor s h, count], fun x => ?_⟩
  rw [counted, anchorBelow_iff]
  exact ⟨fun ⟨shadowed, after, _, nearest⟩ => ⟨after, shadowed, nearest⟩,
    fun ⟨after, shadowed, nearest⟩ => ⟨shadowed, after, ⟨e, listed, h⟩, nearest⟩⟩

/-! ## The obligation -/

/-- Settles O45: a key without an entry by `makeEntry_evicts` and its like, a key with one by the state of its entry,
and every extent by `extentOf_spec`. -/
theorem listActsOnKeys : Obligations.ListActsOnKeys := by
  intro k d claim s head room es ranks made told
  refine ⟨fun fresh => ⟨fun fits => ?_, fun pre x post full split cleared oldest => ?_, fun full standing => ?_,
    clear_fresh fresh⟩, fun pre e post split own others => ?_, s.extentOf, rfl, fun e listed => ?_⟩
  · rw [confirm_fresh fresh, State.makeEntry, if_pos fits]
    exact append_told head room _ _
  · rw [confirm_fresh fresh, makeEntry_evicts full split cleared oldest, ← List.length_append]
    exact append_told head room _ _
  · rw [confirm_fresh fresh]
    exact makeEntry_drops full standing _
  · subst own
    refine ⟨fun active => confirm_active split others active d claim,
      fun orphaned => confirm_orphaned split others orphaned d claim,
      fun cleared => confirm_cleared split others head room cleared d claim,
      fun cleared => clear_idle split others cleared, fun stands acked => ?_, fun stands unacked => ?_⟩
    · rw [clear_standing split others head room stands, afterClear_acked stands acked]
      simp only [Option.toList_none, List.append_nil]
      rfl
    · rw [clear_standing split others head room stands, afterClear_unacked stands unacked]
      simp only [Option.toList_some, List.append_assoc, List.singleton_append]
      rfl
  · simp only [← anchor_iff, ← shadowed_iff]
    exact ⟨extentOf_noAnchor s, fun f a anchor => extentOf_spec s listed anchor⟩

end Sys2Proof.Machine
end

section
/-! SUPPORT. A request's frame read back, from its bytes and from the bits sampled on PDI (R198, R218). -/

namespace Sys2Proof

/-! ## A request in bytes -/

/-- R218: `code` with the fields `fields` is the frame of the request `i`: the code names their length, and they are
read as `i`, whatever bytes follow them. -/
structure IsRequest (code : Byte) (fields : List Byte) (i : Instr) : Prop where
  length : requestLength code = some (fields.length + 1)
  reads : ∀ extra, decodeRequest code (fields ++ extra) = i

/-- R204, R218: the serial of an ACK is read from its three bytes. -/
theorem isRequest_ack (index : Byte) (n : Serial) :
    IsRequest 0x04#8 (index :: bytesLE 3 n.toNat) (.ack index n) where
  length := by rw [List.length_cons, bytesLE_length]; rfl
  reads extra := by
    have serial : ((bytesLE 3 n.toNat) ++ extra).take 3 = bytesLE 3 n.toNat := List.take_left' (bytesLE_length 3 _)
    show Instr.ack index (BitVec.ofNat 24 (natLE (((bytesLE 3 n.toNat) ++ extra).take 3))) = _
    rw [serial, natLE_bytesLE, Nat.mod_eq_of_lt (by exact n.isLt), BitVec.ofNat_toNat, BitVec.setWidth_eq]

/-- R112, R218: a configuration block is its 28 content bytes. -/
theorem isRequest_storeConfig {block : List Byte} (whole : block.length = 28) :
    IsRequest 0x0E#8 block (.storeConfig block) where
  length := by rw [whole]; rfl
  reads extra := congrArg Instr.storeConfig (List.take_left' whole)

/-- R218: the frame of a well-formed request is its code and its fields. -/
theorem encodeFrame_isRequest {i : Instr} {bytes : List Byte} (wf : i.wf) (frame : encodeFrame i = some bytes) :
    ∃ code fields, bytes = code :: fields ∧ IsRequest code fields i := by
  cases i <;> cases frame
  case ack index n => exact ⟨_, _, rfl, isRequest_ack index n⟩
  case storeConfig block => exact ⟨_, _, rfl, isRequest_storeConfig (by simpa [Instr.wf] using wf)⟩
  all_goals exact ⟨_, _, rfl, rfl, fun _ => rfl⟩

/-- R198: a complete frame is read as its request, and bytes beyond it are ignored. -/
theorem IsRequest.decodeFrame_append {code : Byte} {fields : List Byte} {i : Instr} (h : IsRequest code fields i)
    (extra : List Byte) : decodeFrame (code :: fields ++ extra) = i := by
  rw [List.cons_append, decodeFrame, h.length]
  exact (if_neg (by simp)).trans (h.reads extra)

/-- R198: a frame cut short is a BAD FRAME. -/
theorem IsRequest.decodeFrame_take {code : Byte} {fields : List Byte} {i : Instr} (h : IsRequest code fields i)
    {n : Nat} (short : n < (code :: fields).length) : decodeFrame ((code :: fields).take n) = .badFrame := by
  cases n with
  | zero => rfl
  | succ n =>
    rw [List.take_succ_cons, decodeFrame, h.length]
    exact if_pos (by simp at short ⊢; omega)

/-! ## A request in bits of PDI -/

/-- R198: a byte as the bits that PDI carries, bit 0 first. -/
abbrev byteBits (b : Byte) : List Bool := (List.range 8).map b.getLsbD

/-- R198: fewer than eight bits make no byte. -/
theorem pdiBytes_short {bits : List Bool} (short : bits.length < 8) : pdiBytes bits = [] := by
  unfold pdiBytes
  split
  · simp at short; omega
  · rfl

theorem byteBits_flatMap_length (bytes : List Byte) : (bytes.flatMap byteBits).length = 8 * bytes.length := by
  induction bytes with
  | nil => rfl
  | cons b bytes ih => rw [List.flatMap_cons, List.length_append, ih, List.length_cons]; simp; omega

/-- R198: bits cut short make the bytes that are whole. -/
theorem pdiBytes_take (bytes : List Byte) (n : Nat) (cut : n < 8 * bytes.length) :
    pdiBytes ((bytes.flatMap byteBits).take n) = bytes.take (n / 8) := by
  have whole : n / 8 < bytes.length := by omega
  have head : ((bytes.take (n / 8)).flatMap byteBits).length = 8 * (n / 8) := by
    rw [byteBits_flatMap_length, List.length_take, min_eq_left whole.le]
  conv_lhs => rw [← List.take_append_drop (n / 8) bytes, List.flatMap_append, List.take_append,
    List.take_of_length_le (by omega), pdiBytes_append]
  rw [pdiBytes_short (by rw [List.length_take]; omega), List.append_nil]

/-- Settles O5: a well-formed request's frame is its code and its fields (`encodeFrame_isRequest`), and the bits of PDI
make the bytes that are whole (`pdiBytes_append`, `pdiBytes_take`). -/
theorem requestFramesReadBack : Obligations.RequestFramesReadBack := by
  intro i bytes wf frame bits
  obtain ⟨code, fields, rfl, request⟩ := encodeFrame_isRequest wf frame
  refine ⟨request.decodeFrame_append, fun n => request.decodeFrame_take, fun extra => ?_, fun n short => ?_⟩
  · rw [decodePdi, pdiBytes_append]
    exact request.decodeFrame_append _
  · have cut : n < 8 * (code :: fields).length := (byteBits_flatMap_length _).symm ▸ short
    rw [decodePdi, pdiBytes_take _ _ cut]
    exact request.decodeFrame_take (by omega)

end Sys2Proof
end

section
/-! SUPPORT. What a frame shifts out and what its release leaves (R198, R199), the sizes of the replies (R218), and the
requests that read the station (R203 to R205, R210). -/

namespace Sys2Proof.Machine

/-! ## Frames (R198) -/

/-- R198: the frame of a slot, once PSEL is asserted. -/
theorem frameStart_opens {s : State} (closed : s.port.frame = none) : exec .frameStart s =
    .next { s with port := ⟨s.port.slot, some s.port.slot.out.2, s.port.slot.out.1⟩ } := by
  show Host.Outcome.next _ = _
  rw [closed]

/-- R198: PDO shifts out each byte of the frame bit 0 first, and 00h after the last. -/
theorem pdo_within {p : Port} {f : FrameStart} (framed : p.frame = some f) {n : Nat} {b : Byte}
    (there : p.out[n / 8]? = some b) : p.pdo n = some (b.getLsbD (n % 8)) := by
  simp [Port.pdo, Port.shifted, framed, there]

theorem pdo_past {p : Port} {f : FrameStart} (framed : p.frame = some f) {n : Nat} (past : p.out.length ≤ n / 8) :
    p.pdo n = some false := by
  simp [Port.pdo, Port.shifted, framed, past]

/-- R198: a frame answered NOT READY is discarded, whatever it carried. -/
theorem atRelease_discards {s : State} (refused : s.port.frame = some .notReady) (act : State → State) :
    s.atRelease act = { s with port := { s.port with frame := none } } := by
  unfold State.atRelease
  rw [refused]
  rfl

/-- R198, R218: a frame that is acted on and answered at once leaves its reply in the slot. -/
theorem atRelease_replies {s : State} (framed : s.port.frame = some .reply ∨ s.port.frame = some .noRequest)
    {act : State → State} {outcome : Byte} {data : List Byte}
    (answers : ∀ slot, act (s.released slot) = (s.released slot).reply outcome data) :
    s.atRelease act = { s with port := ⟨.finished (replyBytes outcome data), none, s.port.out⟩ } := by
  obtain ⟨slot, release⟩ := atRelease_acts framed act
  rw [release, answers]
  rfl

/-- Settles O53: a frame opens with what its slot holds, PDO goes by the byte it has reached, and a release answers or,
after NOT READY, discards. -/
theorem framesAndRefusedFrames : Obligations.FramesAndRefusedFrames := by
  refine fun code s => ⟨fun closed => ?_, fun f framed n => ⟨fun b => pdo_within framed, pdo_past framed⟩,
    fun framed => ?_, fun refused i listed => ?_⟩
  · rw [frameStart_opens closed]
    refine ⟨fun b slot => ?_, fun slot => ?_, fun slot => ?_⟩ <;> rw [slot] <;> rfl
  · have answers (outcome : Byte) := congrArg (Host.Outcome.next : State → Host.Outcome State Fault Refusal)
      (atRelease_replies framed (act := fun s => s.reply outcome []) fun _ => rfl)
    exact ⟨answers codeBadFrame, answers codeUnknown⟩
  · have discards (act : State → State) := congrArg
      (Host.Outcome.next : State → Host.Outcome State Fault Refusal) (atRelease_discards refused act)
    simp only [List.mem_cons, List.not_mem_nil, or_false] at listed
    rcases listed with rfl | rfl | rfl | rfl | rfl | rfl | rfl | rfl | rfl | rfl | rfl | rfl | rfl <;>
      exact discards _

/-! ## Sizes of the replies (R218) -/

@[simp] theorem byte1_length (n : Nat) : (byte1 n).length = 1 := rfl

@[simp] theorem optLE_length (k : Nat) (v : Option Nat) : (optLE k v).length = k := bytesLE_length k _

@[simp] theorem fieldLE_length (offset k v : Nat) : (fieldLE offset k v).length = k := by
  unfold fieldLE
  split <;> exact bytesLE_length k _

theorem statusReply_length (s : State) : s.statusReply.length = 23 := by
  simp [State.statusReply, bytesLE_length]

theorem talliesReply_length (s : State) : s.talliesReply.length = 34 := by
  simp [State.talliesReply, bytesLE_length, allCirc]

theorem spotResult_bytes_length (x : SpotResult) : x.bytes.length = 18 := by
  cases x <;> simp [SpotResult.bytes, Query.bytes, bytesLE_length]

@[simp] theorem tracker_bytes_length (t : Tracker) : t.bytes.length = 40 := by
  unfold Tracker.bytes
  cases t.latestNote <;> simp [bytesLE_length]

@[simp] theorem lastBytes_length (x : Option LastRecord) (f : LampFn) : (lastBytes x f).length = 13 := by
  unfold lastBytes
  cases x.bind LastRecord.verdict <;> simp [bytesLE_length]

@[simp] theorem filter_bytes_length (f : Filter) : f.bytes.length = 8 := rfl

@[simp] theorem refUnit_bytes_length (r : RefUnit) : r.bytes.length = 15 := rfl

@[simp] theorem balanceBytes_length (r : Option BalanceRecord) : (balanceBytes r).length = 19 := by
  rcases r with _ | ⟨_ | _ | _, _⟩ <;> rfl

/-- R205: the bytes 94 to 116 of LOCAL. -/
def State.feedBytes (s : State) (c : Circ) : List Byte :=
  if s.balanceFeed s.circuits[c].cfg.fn = some c then
    balanceBytes s.balance.results[s.circuits[c].cfg.fn.idx] ++
      balanceFilterBytes s.balance.filters[s.circuits[c].cfg.fn.idx]
  else List.replicate 23 0#8

@[simp] theorem feedBytes_length (s : State) (c : Circ) : (s.feedBytes c).length = 23 := by
  unfold State.feedBytes
  split
  · rw [List.length_append, balanceBytes_length]
    rfl
  · rfl

theorem localReply_length (s : State) (c : Circ) : (s.localReply c).length = 117 := by
  show (_ ++ s.feedBytes c).length = 117
  simp [bytesLE_length]

/-! ## The requests that read the station -/

/-- R199: a unit answers a head's request NOT HEAD. -/
theorem headOnly_unit {s : State} (unit : s.isHead = false) (act : State → State) :
    State.headOnly act s = s.reply codeNotHead [] := if_neg (by simp [unit])

theorem readEntry_listed {s : State} {i : Byte} {e : Entry} (listed : s.faults.entries[i.toNat]? = some e) :
    s.readEntry i = s.reply codeDone (i :: e.bytes) := by
  unfold State.readEntry
  rw [listed]

theorem readEntry_past {s : State} {i : Byte} (past : s.faults.entries.length ≤ i.toNat) :
    s.readEntry i = s.reply codeNoEntry [] := by
  unfold State.readEntry
  rw [List.getElem?_eq_none past]

/-- Settles O54: each request answers the station that its release leaves, which differs from `s` in the port alone. -/
theorem readingRequestsReply : Obligations.ReadingRequestsReply := by
  intro i s framed replied
  have row {act : State → State} {outcome : Byte} {data : List Byte}
      (answers : ∀ slot, act (s.released slot) = (s.released slot).reply outcome data) :
      .next (s.atRelease act) = replied outcome data :=
    congrArg Host.Outcome.next (atRelease_replies framed answers)
  refine ⟨row fun _ => rfl, row fun _ => rfl, fun c => row fun slot => ?_, fun n inRange => row fun slot => ?_,
    fun out => row fun slot => dif_neg (by omega), fun out => row fun slot => if_pos out,
    fun head => ⟨row fun slot => ?_, fun e listed => row fun slot => ?_, fun past => row fun slot => ?_⟩,
    fun unit r listed => ?_, statusReply_length s, talliesReply_length s, spotResult_bytes_length _,
    localReply_length s⟩
  · have number : (BitVec.ofNat 8 c.val).toNat = c.val := by simp; omega
    simp only [number, c.isLt, dite_true]
    rfl
  · have number : (BitVec.ofNat 8 n).toNat = n := by simp; omega
    simp only [number]
    exact if_neg (by omega)
  · exact headOnly_head (s := s.released slot) head _
  · exact (headOnly_head (s := s.released slot) head _).trans (readEntry_listed (s := s.released slot) listed)
  · exact (headOnly_head (s := s.released slot) head _).trans (readEntry_past (s := s.released slot) past)
  · have refuses (act : State → State) : .next (s.atRelease (State.headOnly act)) = replied codeNotHead [] :=
      row fun slot => headOnly_unit (s := s.released slot) unit act
    simp only [List.mem_cons, List.not_mem_nil, or_false] at listed
    rcases listed with rfl | rfl | rfl | rfl | rfl | rfl | rfl | rfl <;> exact refuses _

end Sys2Proof.Machine
end

section
/-! SUPPORT. The learn tracker under a STATUS and at its deadline, and the query deadline (R208, R210). -/

namespace Sys2Proof.Machine

/-! ## Deadlines -/

/-- R208: a tracked station that has not started by its deadline is due; one that has started is not. -/
theorem trackedDue_iff (s : State) (n : Serial) :
    s.trackedDue n = true ↔ ∃ u ∈ s.learner.tracked, u.serial = n ∧ u.started = false ∧ u.deadline ≤ s.now := by
  simp [State.trackedDue, and_assoc]

/-- R208: a tracked station dropped by a head with room in its queue. -/
theorem untrack_room {s : State} (head : s.isHead = true) (room : s.events.length < 16) (n : Serial) (d : LearnDone) :
    s.untrack n d = { s with
      learner := { s.learner with tracked := s.learner.tracked.filter fun x => x.serial != n }
      events := s.events ++ [⟨.learnDone n d, s.trainSeconds⟩] } :=
  raise_room
    (s := { s with learner := { s.learner with tracked := s.learner.tracked.filter (·.serial != n) } }) head room _

/-- R210: the end of a query on a head with room in its queue. -/
theorem timeOutQuery_room {s : State} (head : s.isHead = true) (room : s.events.length < 16) (q : Query) :
    s.timeOutQuery q = { s with
      query := { s.query with outstanding := none, waiting := none, result := .timeout q }
      events := s.events ++ [⟨.spotDone q.serial q.tag true, s.trainSeconds⟩] } :=
  raise_room
    (s := { s with query := { s.query with outstanding := none, waiting := none, result := .timeout q } }) head room _

/-! ## A STATUS read by the learn tracker (R208) -/

/-- R208: what a STATUS must show of a masked lamp circuit. -/
theorem learningShown_iff (mask : Byte) (rep : Report) : learningShown mask rep = true ↔
    ∃ c : Circ, mask.getLsbD c.val = true ∧ (rep.circuits[c].kind = .incandescent ∨ rep.circuits[c].kind = .led) ∧
      rep.circuits[c].learn = .learning := by
  simp [learningShown, mem_allCirc, isLamp_iff, and_assoc]

section
variable {s : State} {n : Serial}

theorem trackLearning_untracked (other : ∀ u ∈ s.learner.tracked, u.serial ≠ n) (rep : Report) :
    s.trackLearning n rep = s := by
  have none_ : s.learner.tracked.find? (·.serial == n) = none := by simpa using other
  unfold State.trackLearning
  rw [none_]

variable {u : Tracked} (found : s.learner.tracked.find? (·.serial == n) = some u) {rep : Report}
include found

/-- R208: a tracked station shown as the tracker knows it. -/
theorem trackLearning_same (same : u.started = learningShown s.learner.mask rep) : s.trackLearning n rep = s := by
  unfold State.trackLearning
  rw [found]
  dsimp only
  rw [same]
  cases learningShown s.learner.mask rep <;> rfl

theorem trackLearning_starts (fresh : u.started = false) (shown : learningShown s.learner.mask rep = true) :
    s.trackLearning n rep = { s with learner := { s.learner with
      tracked := s.learner.tracked.map fun u => if u.serial = n then { u with started := true } else u } } := by
  unfold State.trackLearning
  rw [found]
  dsimp only
  rw [fresh, shown]

theorem trackLearning_done (started : u.started = true) (shown : learningShown s.learner.mask rep = false) :
    s.trackLearning n rep = s.untrack n .done := by
  unfold State.trackLearning
  rw [found]
  dsimp only
  rw [started, shown]

end

/-- R208: the only station tracked under a serial is the one that is found. -/
theorem find_tracked {l : List Tracked} {u : Tracked} (there : u ∈ l) (only : ∀ x ∈ l, x.serial = u.serial → x = u) :
    l.find? (·.serial == u.serial) = some u := by
  cases found : l.find? (·.serial == u.serial) with
  | none => exact absurd (List.find?_eq_none.1 found u there) (by simp)
  | some x => exact congrArg some (only x (List.mem_of_find?_eq_some found) (by simpa using List.find?_some found))

/-! ## The row -/

/-- R156, R208: what the learn tracker of a head finds of a STATUS: the roster, the fault list, the balance checker and
the event queue have taken it. -/
def State.toldOf (s : State) (h : RxHeader) (rep : Report) : State :=
  let out := (s.place h rep).2
  (((s.rosterStatus h rep).listStatus s.roster h
    (if out = .new then none else (s.roster.entryOf h.serial).map RosterEntry.report) rep out).noteUnlisted
      out).raiseRankChanged h.serial out

theorem takeStatus_tracks {s : State} (head : s.isHead = true) {h : RxHeader} {rep : Report}
    (taken : (s.place h rep).2 ≠ .notTaken) : s.takeStatus h rep = (s.toldOf h rep).trackLearning h.serial rep := by
  have read (t : State) : t.learnStatus h.serial rep (s.place h rep).2 = t.trackLearning h.serial rep := by
    cases out : (s.place h rep).2 with
    | notTaken => exact absurd out taken
    | new => rfl
    | refreshed => rfl
    | moved src dst => rfl
  exact (if_pos head).trans (read _)

/-- R180: neither the fault list nor the balance checker reaches the learn tracker. -/
theorem toldOf_learner (s : State) (h : RxHeader) (rep : Report) : (s.toldOf h rep).learner = s.learner := by
  unfold State.toldOf
  rw [(raiseRankChanged_listOnly _ _ _).learner, noteUnlisted_learner, listStatus_learner]
  rfl

/-- R190: a STATUS of a station that keeps its slot is heard by the fault list, and told by nothing else. -/
theorem toldOf_refreshed {s : State} {h : RxHeader} {rep : Report} {r : Rank} {e : RosterEntry}
    (peer : h.serial ≠ s.cfg.serial) (claim : claimOf h = some r) (free : ¬ s.slotTaken h.serial r)
    (single : s.roster.OnlyAt h.serial (some r)) (there : s.roster.slots[r] = some e) (own : e.serial = h.serial) :
    s.toldOf h rep = ((s.seated h rep r).hearStation h.serial (some e.report) rep).settleList := by
  have slot := single.slotOf_some there own
  have entry : s.roster.entryOf h.serial = some e := by rw [Roster.entryOf, slot]; exact there
  have place : s.place h rep = ((s.seated h rep r).roster, .refreshed) := by
    rw [place_slot (destination_open peer claim free)]
    refine Prod.ext rfl ?_
    show (match s.roster.slotOf h.serial with | some q => _ | none => _) = _
    rw [slot]
    exact if_pos rfl
  have seated : s.rosterStatus h rep = s.seated h rep r := by
    rw [rosterStatus_taken (by rw [place]; exact nofun), place]
    rfl
  have calm : s.roster.clashing h.serial = (s.seated h rep r).roster.clashing h.serial := by
    rw [clashing_false single.2]
    exact (intoSlot_clashing s.roster r (s.entryFrom h rep false)).symm
  unfold State.toldOf
  dsimp only
  rw [seated, place, entry, State.listStatus, if_pos calm]
  exact if_neg peer

/-- R190: such a STATUS that repeats the last report raises no event. -/
theorem toldOf_repeated {s : State} {h : RxHeader} {r : Rank} {e : RosterEntry} (peer : h.serial ≠ s.cfg.serial)
    (claim : claimOf h = some r) (free : ¬ s.slotTaken h.serial r) (single : s.roster.OnlyAt h.serial (some r))
    (there : s.roster.slots[r] = some e) (own : e.serial = h.serial) :
    (s.toldOf h e.report).isHead = s.isHead ∧ (s.toldOf h e.report).events = s.events ∧
      (s.toldOf h e.report).trainSeconds = s.trainSeconds := by
  have quiet := hearStation_same (s.seated h e.report r) h.serial e.report
  rw [toldOf_refreshed peer claim free single there own]
  exact ⟨quiet.only.isHead, quiet.events, quiet.only.trainSeconds⟩

/-- R208: a station that keeps its slot, repeats its report and is no longer tracked raises LEARN DONE alone. -/
theorem toldOf_done {s : State} (head : s.isHead = true) (empty : s.events = []) {h : RxHeader} {r : Rank}
    {e : RosterEntry} (peer : h.serial ≠ s.cfg.serial) (claim : claimOf h = some r) (free : ¬ s.slotTaken h.serial r)
    (single : s.roster.OnlyAt h.serial (some r)) (there : s.roster.slots[r] = some e) (own : e.serial = h.serial) :
    ((s.toldOf h e.report).untrack h.serial .done).events = [⟨.learnDone h.serial .done, s.trainSeconds⟩] := by
  obtain ⟨isHead, events, seconds⟩ := toldOf_repeated peer claim free single there own
  have none_ : (s.toldOf h e.report).events = [] := events.trans empty
  rw [untrack_room (isHead.trans head) (by rw [none_]; decide), none_, seconds]
  rfl

/-- Settles O52: the two deadlines by what is due, and a STATUS by the station that the tracker finds under its serial
(`takeStatus_tracks`, `find_tracked`) and by whether it has started and is shown LEARNING. -/
theorem learnTrackerAndQueryEnd : Obligations.LearnTrackerAndQueryEnd := by
  intro s head room
  refine ⟨fun u there fresh past => ?_, fun q outstanding past => ?_, fun n started => ?_,
    fun h p rep r e delivers decoded peer claim opened there own => ?_⟩
  · have due := (trackedDue_iff s u.serial).2 ⟨u, there, rfl, fresh, past⟩
    exact congrArg Host.Outcome.next ((if_pos due).trans (untrack_room head room u.serial .notStarted))
  · have due : s.dueQuery = some q := Option.filter_eq_some_iff.2 ⟨outstanding, by simpa using past⟩
    show Host.Outcome.next _ = _
    rw [due]
    exact congrArg Host.Outcome.next (timeOutQuery_room head room q)
  · refine congrArg Host.Outcome.next (if_neg fun due => ?_)
    obtain ⟨u, there, own, fresh, -⟩ := (trackedDue_iff s n).1 due
    exact Bool.false_ne_true (fresh.symm.trans (started u there own))
  · have free : ¬ s.heard.slotTaken h.serial r := by
      rintro (closed | ⟨x, found, differs⟩)
      · exact opened closed
      · exact differs (Option.some.inj (found.symm.trans there) ▸ own)
    have taken : (s.heard.place h rep).2 ≠ .notTaken := by
      rw [place_slot (destination_open (s := s.heard) peer claim free)]
      exact intoSlot_taken _ _ _
    have learner : (s.heard.toldOf h rep).learner = s.learner := toldOf_learner s.heard h rep
    have row := congrArg (Host.Outcome.next : State → Host.Outcome State Fault Refusal)
      (takeStatus_tracks (s := s.heard) head taken)
    refine ⟨_, (statusTelegram_eq delivers decoded).trans row, ?_⟩
    intro shown gone start starts
    have shown_iff := learningShown_iff s.learner.mask rep
    refine ⟨fun other => ?_, fun u tracked same only => ?_⟩
    · rw [trackLearning_untracked (by rwa [learner]), learner]
    · have found : (s.heard.toldOf h rep).learner.tracked.find? (·.serial == h.serial) = some u := by
        rw [learner, ← same]
        exact find_tracked tracked (same ▸ only)
      refine ⟨fun agrees => ?_, fun fresh isShown => ?_, fun started notShown => ?_⟩
      · rw [trackLearning_same found (by rw [learner, Bool.eq_iff_iff, shown_iff]; exact agrees), learner]
      · rw [trackLearning_starts found fresh (by rw [learner]; exact shown_iff.2 isShown), learner]
      · have done := trackLearning_done found started
          (by rw [learner]; exact Bool.eq_false_iff.2 fun is => notShown (shown_iff.1 is))
        rw [done]
        refine ⟨by rw [untrack_learner, learner], fun empty _ repeated others unlisted => ?_⟩
        subst repeated
        exact toldOf_done (s := s.heard) head empty peer claim free
          ⟨fun x ne => others x fun same => ne (congrArg some same), unlisted⟩ there own

end Sys2Proof.Machine
end

section
/-! SUPPORT. How the bytes of a reply are read (R214, R218): rows of offset, size and value that stand one after
another, and what a part that stands at an offset holds. -/

namespace Sys2Proof.Machine

/-! ## Rows -/

/-- R214: each row, an offset, a size and a value, is what `bs` holds there, least significant byte first. -/
def Reads (bs : List Byte) (rows : List (Nat × Nat × Nat)) : Prop :=
  ∀ o n v, (o, n, v) ∈ rows → natLE ((bs.drop o).take n) = v % 256 ^ n

/-- The bytes of rows that stand one after another. -/
def rowBytes (rows : List (Nat × Nat × Nat)) : List Byte := rows.flatMap fun row => bytesLE row.2.1 row.2.2

/-- Whether rows stand one after another from an offset on. -/
def rowsFollow : Nat → List (Nat × Nat × Nat) → Bool
  | _, [] => true
  | o, (p, n, _) :: rows => p == o && rowsFollow (o + n) rows

/-- What stands at an offset holds its first part there, and the second part behind it. -/
theorem prefix_parts {a b bs : List Byte} {o k : Nat} (stands : a ++ b <+: bs.drop o) (size : a.length = k) :
    a <+: bs.drop o ∧ b <+: bs.drop (o + k) := by
  obtain ⟨rest, split⟩ := stands
  refine ⟨⟨b ++ rest, by rw [← split, List.append_assoc]⟩, rest, ?_⟩
  rw [← List.drop_drop, ← split, List.append_assoc, List.drop_left' size]

/-- R214: a number that stands at an offset is read there. -/
theorem reads_bytesLE {bs : List Byte} {o n v : Nat} (stands : bytesLE n v <+: bs.drop o) :
    natLE ((bs.drop o).take n) = v % 256 ^ n := by
  obtain ⟨rest, split⟩ := stands
  rw [← split, List.take_left' (bytesLE_length n v), natLE_bytesLE]

/-- Rows that stand one after another at their offset are read. -/
theorem Reads.of_prefix {bs : List Byte} {o : Nat} {rows : List (Nat × Nat × Nat)}
    (stands : rowBytes rows <+: bs.drop o) (follow : rowsFollow o rows = true) : Reads bs rows := by
  induction rows generalizing o with
  | nil => exact fun _ _ _ => nofun
  | cons row rows ih =>
    obtain ⟨p, n, v⟩ := row
    rw [rowsFollow, Bool.and_eq_true, beq_iff_eq] at follow
    obtain ⟨rfl, follow⟩ := follow
    obtain ⟨first, others⟩ := prefix_parts (a := bytesLE n v) (b := rowBytes rows) stands (bytesLE_length n v)
    intro q m w there
    rcases List.mem_cons.1 there with same | there
    · cases same
      exact reads_bytesLE first
    · exact ih others follow q m w there

/-- A reply that is the bytes of its rows is read. -/
theorem Reads.of_eq {bs : List Byte} {rows : List (Nat × Nat × Nat)} (same : bs = rowBytes rows)
    (follow : rowsFollow 0 rows = true) : Reads bs rows := .of_prefix (same ▸ List.prefix_rfl) follow

theorem reads_append_iff {bs : List Byte} {l m : List (Nat × Nat × Nat)} :
    Reads bs (l ++ m) ↔ Reads bs l ∧ Reads bs m := by
  simp only [Reads, List.mem_append, or_imp, forall_and]

theorem Reads.append {bs : List Byte} {l m : List (Nat × Nat × Nat)} (first : Reads bs l) (second : Reads bs m) :
    Reads bs (l ++ m) := reads_append_iff.2 ⟨first, second⟩

/-- Rows are read when the first `k` of them and the others are. -/
theorem Reads.cut {bs : List Byte} {rows : List (Nat × Nat × Nat)} (k : Nat) (first : Reads bs (rows.take k))
    (others : Reads bs (rows.drop k)) : Reads bs rows := List.take_append_drop k rows ▸ first.append others

/-- R214: a byte is the one byte of its number. -/
theorem bytesLE_byte (b : Byte) : bytesLE 1 b.toNat = [b] := by
  rw [bytesLE, bytesLE, BitVec.ofNat_toNat, BitVec.setWidth_eq]

/-- R218: a value that fits its field is what the field shows. -/
theorem fieldLE_fits {offset k v : Nat} (fits : v < 256 ^ k) : fieldLE offset k v = bytesLE k v := if_pos fits

/-- R218: a field shows one number, and that is its value where it fits (log entry 23 leaves the other open). -/
theorem fieldLE_shows (offset k v : Nat) : ∃ x, fieldLE offset k v = bytesLE k x ∧ (v < 256 ^ k → x = v) := by
  by_cases fits : v < 256 ^ k
  · exact ⟨v, fieldLE_fits fits, fun _ => rfl⟩
  · exact ⟨_, if_neg fits, fun small => absurd small fits⟩

/-- Rows on both sides of a field, and the field where it shows its value. -/
theorem reads_around {bs : List Byte} {l r : List (Nat × Nat × Nat)} {o n v : Nat} {fits : Prop} (x : Nat)
    (shows : fits → x = v) (all : Reads bs (l ++ ((o, n, x) :: r))) :
    Reads bs l ∧ (fits → Reads bs [(o, n, v)]) ∧ Reads bs r := by
  obtain ⟨left, rest⟩ := reads_append_iff.1 all
  obtain ⟨field, right⟩ := (reads_append_iff (l := [(o, n, x)]) (m := r)).1 rest
  exact ⟨left, fun fit => shows fit ▸ field, right⟩

/-! ## Values -/

/-- R215: the weights of the causes. -/
theorem causes_toNat (x : Causes) : x.toBits.toNat = bit x.lowSupply 1 + bit x.cranking 2 + bit x.commandLost 4 +
    bit x.headClash 8 + bit x.unranked 16 := by
  obtain ⟨a, b, c, d, e⟩ := x
  revert a b c d e
  decide

/-- R218: the weights of the sticky flags. -/
theorem flags_toByte (f : Flags) : f.toByte = BitVec.ofNat 8 (bit f.eventOverflow 1 + bit f.listOverflow 2 +
    bit f.txCutoff 4 + bit f.lineStuck 8 + bit f.storeFault 16 + bit f.configFault 32 + bit f.rosterFull 64) := by
  obtain ⟨a, b, c, d, e, g, h⟩ := f
  revert a b c d e g h
  decide

theorem invalidSerial_bit (n : Serial) :
    bit (!validSerial n) 2 = if n = 0#24 ∨ n = 0xFFFFFF#24 then 2 else 0 := by
  by_cases zero : n = 0#24 <;> by_cases ones : n = 0xFFFFFF#24 <;> simp [bit, validSerial, zero, ones]

theorem rankCode_rank (x : RankState) : rankCode x.rank? = match x with | .ranked r => r.val | _ => 8 := by
  cases x <;> rfl

theorem causeCode_eq (x : RankState) :
    x.causeCode = match x with | .unranked .frontSilent => 1 | .unranked .overflow => 2 | _ => 0 := by
  rcases x with _ | _ | _ | _ <;> rfl

theorem rateCode_sendRate (x : Presence) :
    rateCode x.sendRate = match x with | .listening => 4 | .alone r => r.code | .joined r => r.code := by
  cases x <;> rfl

theorem rateCode_rate (x : Receiver) :
    rateCode x.rate = match x with | .hunt => 4 | .verify r _ => r.code | .synced r => r.code := by
  cases x <;> rfl

/-! ## Parts of LOCAL (R205) -/

section
variable {bs : List Byte}

/-- Bytes 13 to 46: the cadence tracker without its latest note. -/
theorem tracker_reads {t : Tracker} (stands : t.bytes <+: bs.drop 13) :
    Reads bs [
      (13, 1, (match t.activity with | .dormant => 0 | .active => 1 | .lingering => 2) + bit t.locked 4 +
        8 * t.window.length),
      (14, 4, t.prevOn.getD 0), (18, 4, t.phaseStart.getD 0), (22, 2, t.window[0]?.getD 0),
      (24, 2, t.window[1]?.getD 0), (26, 2, t.window[2]?.getD 0), (28, 2, t.window[3]?.getD 0),
      (30, 2, t.pbar.getD 0)] ∧
    (t.lastT.getD 0 < 65536 → Reads bs [(32, 2, t.lastT.getD 0)]) ∧
    Reads bs [(34, 1, t.disagree + 4 * t.miss), (35, 4, t.compareAt.getD 0), (39, 4, t.silenceAt.getD 0),
      (43, 4, t.lingerAt.getD 0)] := by
  obtain ⟨x, shows, fits⟩ := fieldLE_shows 32 2 (t.lastT.getD 0)
  obtain ⟨front, -⟩ := prefix_parts stands (k := 34) (by simp [bytesLE_length])
  refine reads_around x fits (.of_prefix (o := 13) ?_ rfl)
  rw [shows] at front
  simp only [List.append_assoc] at front
  exact front

/-- Bytes 47 to 52: the tracker's latest note. -/
theorem note_reads {t : Tracker} (stands : t.bytes <+: bs.drop 13) :
    Reads bs [
      (47, 1, match t.latestNote with | none => 0 | some n => bit n.period 1 + bit n.duty 2 + bit n.mismatch 4),
      (48, 2, (t.latestNote.map CadenceNote.pbar).getD 0)] ∧
    (∀ n, t.latestNote = some n → (n.onTime < 65536 → Reads bs [(50, 2, n.onTime)]) ∧
      (n.dutyPercent < 256 → Reads bs [(52, 1, n.dutyPercent)])) ∧
    (t.latestNote = none → Reads bs [(50, 2, 0), (52, 1, 0)]) := by
  obtain ⟨-, note⟩ := prefix_parts stands (k := 34) (by simp [bytesLE_length])
  cases h : t.latestNote with
  | none =>
    rw [h] at note
    have all : Reads bs ([(47, 1, 0), (48, 2, 0)] ++ [(50, 2, 0), (52, 1, 0)]) := .of_prefix note rfl
    exact ⟨(reads_append_iff.1 all).1, fun _ => nofun, fun _ => (reads_append_iff.1 all).2⟩
  | some n =>
    rw [h] at note
    obtain ⟨front, duty⟩ := prefix_parts note (k := 5) (by simp [bytesLE_length])
    obtain ⟨front, onTime⟩ := prefix_parts front (k := 3) (by simp [bytesLE_length])
    refine ⟨.of_prefix front rfl, fun m same => ?_, nofun⟩
    cases same
    refine ⟨fun fits => .of_prefix (o := 50) ?_ rfl, fun fits => .of_prefix (o := 52) ?_ rfl⟩
    · rwa [fieldLE_fits fits] at onTime
    · rwa [fieldLE_fits fits] at duty

/-- Bytes 53 to 65: the last record, its verdict and its severity. -/
theorem lastBytes_reads {last : Option LastRecord} {f : LampFn} (stands : lastBytes last f <+: bs.drop 53) :
    let v := last.bind LastRecord.verdict
    let lamp := v.bind Verdict.lamp
    let found := (v.map Verdict.findings).getD ⟨false, false, false, false⟩
    Reads bs [
      (53, 1, (match last.map LastRecord.kind with
        | none => 0 | some .window => 1 | some .onPhase => 2 | some .missedFlash => 3) + bit v.isSome 128),
      (54, 2, (last.map LastRecord.im).getD 0), (56, 1, match v with | none => 15 | some w => kindCode w.kind),
      (57, 1, bit lamp.isSome 1 + bit ((lamp.map LampStages.nominal).getD false) 2 + bit found.period 4 +
        bit found.duty 8 + bit found.mismatch 16 + bit found.heldOn 32),
      (58, 2, (lamp.map LampStages.inorm).getD 0), (60, 2, (lamp.map LampStages.r).getD 0),
      (62, 1, (lamp.map LampStages.m).getD 0 + 16 * (lamp.map LampStages.n).getD 0),
      (63, 1, attributionCode (v.bind Verdict.attribution)), (64, 1, frontCode (v.bind Verdict.front)),
      (65, 1, match v.bind Verdict.kind with | none => 3 | some x => (severityOf x (some f)).code)] := by
  refine .of_prefix (o := 53) ?_ rfl
  rcases last with _ | ⟨kind, im, _ | v⟩
  · exact stands
  · simp only [Option.bind_some, Option.bind_none, Option.map_none, Option.getD_none]
    exact stands
  · exact stands

/-- Bytes 66 to 73: the filter of the circuit. -/
theorem filter_reads {f : Filter} (stands : f.bytes <+: bs.drop 66) :
    Reads bs [(66, 1, kindCode f.candidate), (67, 1, f.confirm + 4 * f.clear), (68, 1, kindCode f.confirmed),
      (69, 1, f.m.getD 15), (70, 1, f.n), (71, 1, attributionCode f.attribution), (72, 1, frontCode f.front),
      (73, 1, signCode f.sign)] := .of_prefix stands rfl

/-- Bytes 74 to 88: the reference unit. -/
theorem refUnit_reads {u : RefUnit} (stands : u.bytes <+: bs.drop 74) :
    Reads bs [(74, 1, u.learn.code), (75, 2, u.iref.getD 0), (77, 1, u.k), (78, 4, u.sum), (82, 4, u.deadline.getD 0),
      (86, 1, (u.epoch.map BitVec.toNat).getD 0),
      (87, 1, match u.outcome with
        | .none => 0 | .done => 1 | .failedOutOfRange => 2 | .failedNotLit => 3 | .recordBad => 4
        | .recordDiscarded => 5),
      (88, 1, match u.save with | .none => 0 | .waiting => 1 | .writing => 2 | .saved => 3 | .failed => 4)] :=
  .of_prefix stands rfl

/-- R218: the difference stands in two's complement. -/
theorem figures_bytes (f : BalanceFigures) : f.bytes =
    bytesLE 2 f.ihead ++ bytesLE 4 f.sum ++ bytesLE 4 (f.diff % 4294967296).toNat ++ bytesLE 2 f.threshold := by
  rw [BalanceFigures.bytes, signedLE4, BitVec.toNat_ofInt]
  rfl

/-- Bytes 94 to 116: the balance result and the balance filter of the feed's function. -/
theorem balance_reads {result : Option BalanceRecord} {h : Filter}
    (stands : balanceBytes result ++ balanceFilterBytes h <+: bs.drop 94) :
    let figures : BalanceFigures := (match result.map BalanceRecord.result with
      | some (.leakage _ f) => f | some (.clean f) => f | _ => ⟨0, 0, 0, 0⟩)
    Reads bs [
      (94, 1, match result.map BalanceRecord.result with
        | none => 0 | some (.leakage _ _) => 1 | some (.clean _) => 2 | some (.thin _) => 3),
      (95, 1, match result.map BalanceRecord.result with
        | some (.thin .feed) => 1 | some (.thin .coast) => 2 | some (.thin .unplaced) => 3
        | some (.thin .unlisted) => 4 | some (.thin .stale) => 5 | some (.thin .unjudged) => 6 | _ => 0),
      (96, 1, match result.map BalanceRecord.result with
        | some (.leakage .sink _) => 1 | some (.leakage .source _) => 2 | _ => 0),
      (97, 2, figures.ihead), (99, 4, figures.sum), (103, 4, (figures.diff % 4294967296).toNat),
      (107, 2, figures.threshold), (109, 4, (result.map BalanceRecord.formedAt).getD 0),
      (113, 1, kindCode h.candidate), (114, 1, h.confirm + 4 * h.clear), (115, 1, kindCode h.confirmed),
      (116, 1, signCode h.sign)] := by
  refine .of_prefix (o := 94) ?_ rfl
  rcases result with _ | ⟨⟨sign, f⟩ | f | why, formed⟩
  · exact stands
  · rw [balanceBytes, figures_bytes] at stands
    cases sign <;> exact stands
  · rw [balanceBytes, figures_bytes] at stands
    exact stands
  · simp only [Option.map_some]
    cases why <;> exact stands

end

/-- R205: where the parts of LOCAL stand. -/
theorem localReply_parts (s : State) (c : Circ) :
    let bs := s.localReply c
    let k := s.circuits[c]
    byte1 c.val ++ byte1 (k.cfg.fn.code + 8 * k.cfg.kind.code + bit k.energized 32) ++ byte1 k.cfg.n ++
        bytesLE 2 k.cfg.rating ++ bytesLE 2 (s.noneMask c) ++ optLE 4 k.lastOn ++ bytesLE 2 k.glitch <+: bs.drop 0 ∧
      k.tracker.bytes <+: bs.drop 13 ∧ lastBytes k.last k.cfg.fn <+: bs.drop 53 ∧ k.filter.bytes <+: bs.drop 66 ∧
      k.ref.bytes <+: bs.drop 74 ∧ optLE 1 (s.actedEpoch.map BitVec.toNat) <+: bs.drop 89 ∧
      bytesLE 2 (s.vs.getD 0) <+: bs.drop 90 ∧
      fieldLE 92 2 (if s.isHead then 0 else s.cmd.headSupply) <+: bs.drop 92 ∧ s.feedBytes c <+: bs.drop 94 := by
  intro bs k
  have whole : s.localReply c <+: bs.drop 0 := List.prefix_rfl
  obtain ⟨rest, feed⟩ := prefix_parts (b := s.feedBytes c) (k := 94) whole (by simp [bytesLE_length])
  obtain ⟨rest, supply⟩ := prefix_parts (k := 92) rest (by simp [bytesLE_length])
  obtain ⟨rest, vs⟩ := prefix_parts (k := 90) rest (by simp [bytesLE_length])
  obtain ⟨rest, acted⟩ := prefix_parts (k := 89) rest (by simp [bytesLE_length])
  obtain ⟨rest, ref⟩ := prefix_parts (k := 74) rest (by simp [bytesLE_length])
  obtain ⟨rest, filter⟩ := prefix_parts (k := 66) rest (by simp [bytesLE_length])
  obtain ⟨rest, last⟩ := prefix_parts (k := 53) rest (by simp [bytesLE_length])
  obtain ⟨head, tracker⟩ := prefix_parts (k := 13) rest (by simp [bytesLE_length])
  exact ⟨head, tracker, last, filter, ref, acted, vs, supply, feed⟩

/-- R7: a circuit is the balance feed of its own function. -/
theorem balanceFeed_own_iff (s : State) (c : Circ) : s.balanceFeed s.circuits[c].cfg.fn = some c ↔
    s.isHead = true ∧ s.circuits[c].cfg.kind = .feed ∧
      ∀ d : Circ, d < c → ¬ (s.circuits[d].cfg.kind = .feed ∧ s.circuits[d].cfg.fn = s.circuits[c].cfg.fn) := by
  rw [balanceFeed_iff]
  simp only [true_and]

/-- R205: no balance result stands in the LOCAL of a circuit that is not its function's feed. -/
theorem feedBytes_none {s : State} {c : Circ} (other : s.balanceFeed s.circuits[c].cfg.fn ≠ some c) :
    s.feedBytes c = List.replicate 23 0#8 := if_neg other

theorem feedBytes_feed {s : State} {c : Circ} (feed : s.balanceFeed s.circuits[c].cfg.fn = some c) :
    s.feedBytes c = balanceBytes s.balance.results[s.circuits[c].cfg.fn.idx] ++
      balanceFilterBytes s.balance.filters[s.circuits[c].cfg.fn.idx] := if_pos feed

/-! ## The other replies -/

theorem entry_bytes_length (e : Entry) : e.bytes.length = 19 := by
  simp [Entry.bytes, bytesLE_length]

theorem rosterEntry_bytes_length (e : RosterEntry) (place : Nat) : (e.bytes place).length = 47 := by
  simp [RosterEntry.bytes, bytesLE_length]

/-- R205: the tallies of the circuits stand between those of the link and those of the commands. -/
theorem talliesReply_parts (s : State) :
    let bs := s.talliesReply
    bytesLE 2 s.link.errors.command ++ bytesLE 2 s.link.errors.learn ++ bytesLE 2 s.link.errors.query ++
        bytesLE 2 s.link.errors.reading ++ bytesLE 2 s.link.errors.status ++ bytesLE 2 s.link.errors.unkinded ++
        bytesLE 2 s.link.driveFaults <+: bs.drop 0 ∧
      allCirc.flatMap (fun c => bytesLE 2 s.circuits[c].glitch) <+: bs.drop 14 ∧
      bytesLE 2 s.cmd.staleTally <+: bs.drop 30 ∧ bytesLE 2 (if s.isHead then s.query.late else 0) <+: bs.drop 32 := by
  intro bs
  have whole : s.talliesReply <+: bs.drop 0 := List.prefix_rfl
  obtain ⟨rest, late⟩ := prefix_parts (k := 32) whole (by simp [bytesLE_length, allCirc])
  obtain ⟨rest, stale⟩ := prefix_parts (k := 30) rest (by simp [bytesLE_length, allCirc])
  obtain ⟨errors, glitches⟩ := prefix_parts (k := 14) rest (by simp [bytesLE_length])
  exact ⟨errors, glitches, stale, late⟩

theorem circuitTallies_reads {s : State} {bs : List Byte}
    (stands : allCirc.flatMap (fun c => bytesLE 2 s.circuits[c].glitch) <+: bs.drop 14) (c : Circ) :
    Reads bs [(14 + 2 * c.val, 2, s.circuits[c].glitch)] := by
  have all : Reads bs (allCirc.map fun d => (14 + 2 * d.val, 2, s.circuits[d].glitch)) := .of_prefix stands rfl
  intro o n v there
  exact all o n v (List.mem_singleton.1 there ▸ List.mem_map_of_mem (mem_allCirc c))

theorem rosterReply_slot (s : State) (r : Rank) : s.rosterReply r.val =
    if s.rank.state = .ranked r then [0#8] else entryReply s.roster.slots[r] r.val := by
  unfold State.rosterReply
  rw [dif_pos r.isLt]
  simp only [slotClosed_iff]
  rfl

theorem rosterReply_unplaced (s : State) (i : Nat) :
    s.rosterReply (8 + i) = entryReply s.roster.unplaced[i]? 8 := by
  unfold State.rosterReply
  rw [dif_neg (by omega), Nat.add_sub_cancel_left]

/-- R205: a ROSTER entry in 47 bytes. -/
theorem rosterEntry_reads (e : RosterEntry) (place : Nat) : Reads (e.bytes place) [
    (0, 1, 2), (1, 3, e.serial.toNat), (4, 1, place), (5, 1, rankCode e.claimed),
    (6, 1, bit e.head 1 + bit e.clash 2 + bit e.aged 4), (7, 4, e.heard), (11, 36, e.report.encode.toNat)] := by
  refine .of_eq ?_ rfl
  rw [RosterEntry.bytes, RosterEntry.isFresh, Bool.not_not]
  rfl

/-- R218: a fault list entry in 19 bytes. -/
theorem entry_reads (e : Entry) : Reads e.bytes [
    (0, 3, e.key.serial.toNat), (3, 1, kindCode (some e.key.kind)),
    (4, 1, match e.key.circuit with | some c => c.val | none => (e.key.fn.map LampFn.code).getD 0),
    (5, 1, (e.key.fn.map LampFn.code).getD 8),
    (6, 1, e.severity.code + (match e.state with | .active => 0 | .cleared => 4 | .orphaned => 8) + bit e.acked 16 +
      (if e.details.sign = some .source then 32 else 0)),
    (7, 1, e.occurrences), (8, 4, e.first.toNat), (12, 1, rankCode e.rankConf), (13, 1, rankCode e.rankCur),
    (14, 1, e.details.m), (15, 1, attributionCode e.details.attribution), (16, 1, e.details.front.getD 0),
    (17, 1, e.details.mask.toNat), (18, 1, e.extent)] := by
  have state : 4 * e.state.code = match e.state with | .active => 0 | .cleared => 4 | .orphaned => 8 := by
    cases e.state <;> rfl
  have sign : bit (e.details.sign == some .source) 32 = if e.details.sign = some .source then 32 else 0 := by
    simp [bit]
  refine .of_eq ?_ rfl
  rw [Entry.bytes, state, sign, ← bytesLE_byte e.details.mask]
  simp only [List.append_assoc]
  rfl

/-- R210: the code of a spot result, the query it is of, and what stands behind them. -/
theorem spot_parts {bs data : List Byte} {code : Nat} {q : Query} (whole : bs = byte1 code ++ q.bytes ++ data) :
    Reads bs [(0, 1, code)] ∧
      Reads bs [(1, 1, q.tag.toNat), (2, 1, q.rank.val), (3, 3, q.serial.toNat), (6, 1, q.circuit.val)] ∧
      data <+: bs.drop 7 := by
  have stands : byte1 code ++ q.bytes ++ data <+: bs.drop 0 := whole ▸ List.prefix_rfl
  obtain ⟨rest, behind⟩ := prefix_parts (k := 7) stands rfl
  obtain ⟨first, query⟩ := prefix_parts (k := 1) rest rfl
  exact ⟨.of_prefix first rfl, .of_prefix query rfl, behind⟩

/-- R210: a query that has no reading yet, or has none at all, leaves the figures 0. -/
theorem spot_noFigures {bs : List Byte} {code : Nat} {q : Query}
    (whole : bs = byte1 code ++ q.bytes ++ List.replicate 11 0#8) :
    Reads bs ([(0, 1, code), (7, 11, 0)] ++
      [(1, 1, q.tag.toNat), (2, 1, q.rank.val), (3, 3, q.serial.toNat), (6, 1, q.circuit.val)]) := by
  obtain ⟨first, query, figures⟩ := spot_parts whole
  have zeros : Reads bs [(7, 11, 0)] := .of_prefix figures rfl
  exact (first.append zeros).append query

/-- R210: the figures of a reading stand behind its query. -/
theorem spotDone_bytes (q : Query) (d : ReadingData) : (SpotResult.done q d).bytes =
    byte1 2 ++ q.bytes ++ (bytesLE 2 d.vm ++ (bytesLE 2 d.im ++ (bytesLE 2 d.inorm ++ (bytesLE 2 d.r ++
      (byte1 d.m ++ (byte1 d.n ++ byte1 d.learn.code)))))) := by
  simp only [SpotResult.bytes, List.append_assoc]

/-- R200, R218: an event in 10 bytes. -/
theorem event_reads {e : Event} {kind index status : Nat} {n : Serial} (same : e.bytes =
    byte1 kind ++ byte1 index ++ byte1 status ++ bytesLE 3 n.toNat ++ bytesLE 4 e.seconds.toNat) : Reads e.bytes
      [(0, 1, kind), (1, 1, index), (2, 1, status), (3, 3, n.toNat), (6, 4, e.seconds.toNat)] := .of_eq same rfl

/-- Settles O55: each reply as the bytes of rows that stand one after another; LOCAL and TALLIES part by part. -/
theorem replyLayouts : Obligations.ReplyLayouts := by
  intro s reads b causes head g
  refine ⟨⟨rfl, rfl, rfl, rfl, rfl, rfl, rfl, rfl, rfl, rfl, fun _ => rfl, fun _ => rfl⟩,
    ⟨statusReply_length s, Reads.of_eq ?_ rfl⟩, fun c => ?_, ⟨talliesReply_length s, ?_⟩, ?_,
    fun e => ⟨entry_bytes_length e, entry_reads e⟩, fun q d => ?_, fun e => ⟨event_bytes_length e, ?_⟩⟩
  · rw [State.statusReply, causes_toNat, causes_toNat, flags_toByte, invalidSerial_bit, causeCode_eq, rankCode_rank,
      rateCode_sendRate, rateCode_rate]
    simp only [List.append_assoc]
    rfl
  · intro k t u bs v lamp found feed result figures h
    obtain ⟨first, tracker, last, filter, ref, acted, vs, supply, balance⟩ := localReply_parts s c
    obtain ⟨before, lastT, after⟩ := tracker_reads tracker
    obtain ⟨note, noteWide, noteNone⟩ := note_reads tracker
    have own : s.balanceFeed k.cfg.fn = some c ↔ feed := balanceFeed_own_iff s c
    refine ⟨localReply_length s c, ?_, ?_, noteWide, noteNone, ?_, ?_, ?_, ?_⟩
    · refine Reads.cut 7 (Reads.of_prefix first rfl) (before.append (after.append (note.append
        ((lastBytes_reads last).append ((filter_reads filter).append ((refUnit_reads ref).append ?_))))))
      exact Reads.cut 1 (Reads.of_prefix acted rfl) (Reads.of_prefix vs rfl)
    · rintro x rfl fits
      exact lastT fits
    · intro isHead
      rw [if_pos isHead] at supply
      exact Reads.of_prefix (o := 92) supply rfl
    · intro unit fits
      rw [if_neg (by simp [unit]), fieldLE_fits fits] at supply
      exact Reads.of_prefix (o := 92) supply rfl
    · intro other
      rw [feedBytes_none (mt own.1 other)] at balance
      exact Reads.of_prefix (o := 94) balance rfl
    · intro isFeed
      rw [feedBytes_feed (own.2 isFeed)] at balance
      exact balance_reads balance
  · obtain ⟨errors, glitches, stale, late⟩ := talliesReply_parts s
    refine ⟨Reads.cut 7 (Reads.of_prefix errors rfl) ?_, circuitTallies_reads glitches⟩
    exact Reads.cut 1 (Reads.of_prefix stale rfl) (Reads.of_prefix late rfl)
  · intro entry
    have listed (place : Nat) (e : RosterEntry) : entry (entryReply (some e) place) place e :=
      ⟨rosterEntry_bytes_length e place, rosterEntry_reads e place⟩
    refine ⟨fun r => ?_, fun i => ?_⟩
    · rw [rosterReply_slot]
      refine ⟨fun own => if_pos own, fun other open_ => ?_, fun e other there => ?_⟩ <;> rw [if_neg other]
      · rw [open_]
        rfl
      · rw [there]
        exact listed r.val e
    · rw [rosterReply_unplaced]
      refine ⟨fun open_ => ?_, fun e there => ?_⟩
      · rw [open_]
        rfl
      · rw [there]
        exact listed 8 e
  · obtain ⟨first, query, figures⟩ := spot_parts (spotDone_bytes q d)
    exact ⟨rfl, spot_noFigures rfl, spot_noFigures rfl, (first.append query).append (.of_prefix figures rfl)⟩
  · obtain ⟨body, seconds⟩ := e
    cases body with
    | learnDone n x => cases x <;> exact event_reads rfl
    | _ => exact event_reads rfl

end Sys2Proof.Machine
end

section
/-! SUPPORT. The payloads read back and their range tests (R216, R217): where each field of a payload lies, and when
each decoder answers none. -/

namespace Sys2Proof.Machine

/-! ## Fields of a joined word -/

/-- A field above the low part lies in the high part. -/
theorem extract_above {a b start len : Nat} {hi : BitVec a} {lo : BitVec b} (h : b ≤ start) :
    (hi ++ lo).extractLsb' start len = hi.extractLsb' (start - b) len := BitVec.extractLsb'_append_eq_of_le h

/-- A field that ends inside the low part lies in it. -/
theorem extract_below {a b start len : Nat} {hi : BitVec a} {lo : BitVec b} (h : start + len ≤ b) :
    (hi ++ lo).extractLsb' start len = lo.extractLsb' start len := BitVec.extractLsb'_append_eq_of_add_le h

theorem extract_whole {w start : Nat} {x : BitVec w} (h : start = 0) : x.extractLsb' start w = x := by
  rw [h, BitVec.extractLsb'_eq_self]

/-- A bit is the field of width 1 at its place. -/
theorem getLsbD_of_extract {w i : Nat} {x : BitVec w} {b : Bool} (h : x.extractLsb' i 1 = BitVec.ofBool b) :
    x.getLsbD i = b := by
  simpa using congrArg (·.getLsbD 0) h

/-- R216: eight fields of two bits, that of 0 lowest. -/
def twoBits (f : Circ → BitVec 2) : BitVec 16 := f 7 ++ f 6 ++ f 5 ++ f 4 ++ f 3 ++ f 2 ++ f 1 ++ f 0

/-- R216: each of the eight fields is read back from its place. -/
theorem twoBits_field (f : Circ → BitVec 2) (c : Circ) : (twoBits f).extractLsb' (2 * c.val) 2 = f c := by
  unfold twoBits
  fin_cases c <;> simp (disch := omega) only [extract_above, extract_below, extract_whole] <;> rfl

theorem stateBits_eq (v : Vector FnState 8) : stateBits v = twoBits fun c => BitVec.ofNat 2 v[c].code := rfl

theorem learnBits_eq (r : Report) : r.learnBits = twoBits fun c => BitVec.ofNat 2 r.circuits[c].learn.code := rfl

/-! ## Codes and eight results -/

/-- R217: function state 3, and no other, is out of range. -/
theorem fnState_none (v : BitVec 2) : FnState.ofCode v = none ↔ v = 3 := by revert v; decide

/-- R217: learn state 3, and no other, is out of range. -/
theorem learnState_none (v : BitVec 2) : LearnState.ofCode v = none ↔ v = 3 := by revert v; decide

/-- R216: the kinds with codes 1 to 7 are read back. -/
theorem faultKind_code {k : Option FaultKind} (small : ∀ x, k = some x → x.code ≤ 7) :
    kindOfCode (BitVec.ofNat 3 (kindCode k)) = k := by
  cases k with
  | none => rfl
  | some x =>
    have carried := small x rfl
    revert carried
    cases x <;> decide

/-- R215: the attribution of a circuit is always in range (R217). -/
theorem attributionCode_le (a : Option Attribution) : attributionCode a ≤ 4 := by
  cases a with
  | none => decide
  | some a => cases a <;> decide

theorem eight_self {α : Type} (v : Vector α 8) : eight (fun c => v[c]) = v :=
  Vector.ext fun i h => eight_get_val _ ⟨i, h⟩

/-- One result that is none makes the eight none. -/
theorem eightM_none {α : Type} {f : Circ → Option α} : eightM f = none ↔ ∃ c, f c = none := by
  constructor
  · intro missing
    by_contra all
    have present (c : Circ) : (f c).isSome := Option.isSome_iff_ne_none.2 fun h => all ⟨c, h⟩
    rw [eightM_some f (fun c => (f c).get (present c)) fun c => (Option.some_get _).symm] at missing
    cases missing
  · rintro ⟨c, missing⟩
    cases read : eightM f with
    | none => rfl
    | some v => exact absurd ((eightM_get read c).symm.trans missing) nofun

/-! ## COMMAND -/

/-- R216: where the fields of a COMMAND lie. -/
theorem command_fields (c : CommandContent) : c.encode.extractLsb' 0 8 = c.epoch ∧
    (∀ f : Fin 8, c.encode.extractLsb' (8 + 2 * f.val) 2 = BitVec.ofNat 2 c.states[f].code) ∧
    c.encode.extractLsb' 24 16 = BitVec.ofNat 16 c.period ∧
    c.encode.extractLsb' 40 1 = BitVec.ofBool c.crank ∧ c.encode.extractLsb' 41 1 = BitVec.ofBool c.fresh ∧
    c.encode.extractLsb' 48 16 = BitVec.ofNat 16 c.vs := by
  unfold CommandContent.encode
  refine ⟨?_, fun f => ?_, ?_⟩
  · simp (disch := omega) only [extract_below, extract_whole]
  · have state := twoBits_field (fun f => BitVec.ofNat 2 c.states[f].code) f
    simp (disch := omega) only [extract_above, extract_below, stateBits_eq, Nat.add_sub_cancel_left, state]
  · simp (disch := omega) only [extract_above, extract_below, extract_whole, and_self]

/-- R216: a COMMAND in range is read back. -/
theorem command_decode_encode (c : CommandContent) (period : c.period ≤ 2000) (vs : c.vs < 65536) :
    CommandContent.decode c.encode = some c := by
  obtain ⟨epoch, states, periodField, crank, fresh, vsField⟩ := command_fields c
  have read := eightM_some (fun f => FnState.ofCode (c.encode.extractLsb' (8 + 2 * f.val) 2)) (fun f => c.states[f])
    fun f => by rw [states, fnState_code]
  unfold CommandContent.decode
  rw [read, eight_self, epoch, periodField, vsField, getLsbD_of_extract crank, getLsbD_of_extract fresh]
  simp (disch := omega) only [BitVec.toNat_ofNat, Nat.mod_eq_of_lt]
  exact if_neg (by omega)

/-- R217: a COMMAND is refused exactly for its period or a function state. -/
theorem command_decode_none (p : BitVec 64) : CommandContent.decode p = none ↔
    2000 < (p.extractLsb' 24 16).toNat ∨ ∃ f : Fin 8, p.extractLsb' (8 + 2 * f.val) 2 = 3 := by
  have states : (eightM fun f => FnState.ofCode (p.extractLsb' (8 + 2 * f.val) 2)) = none ↔
      ∃ f : Fin 8, p.extractLsb' (8 + 2 * f.val) 2 = 3 := by simp only [eightM_none, fnState_none]
  rw [← states]
  unfold CommandContent.decode
  split
  · next bad => simp [bad]
  · next good => simp [good]

/-! ## STATUS -/

/-- R216: where the fields of a circuit word lie. -/
theorem CircuitReport.word_fields (r : CircuitReport) : r.word.extractLsb' 0 3 = BitVec.ofNat 3 r.fn.code ∧
    r.word.extractLsb' 3 2 = BitVec.ofNat 2 r.kind.code ∧ r.word.extractLsb' 5 1 = BitVec.ofBool r.energized ∧
    r.word.extractLsb' 6 1 = BitVec.ofBool r.judged ∧ r.word.extractLsb' 7 3 = BitVec.ofNat 3 (kindCode r.confirmed) ∧
    r.word.extractLsb' 10 4 = BitVec.ofNat 4 r.m ∧
    r.word.extractLsb' 14 3 = BitVec.ofNat 3 (attributionCode r.attribution) ∧
    r.word.extractLsb' 17 3 = BitVec.ofNat 3 (r.front.getD 0) ∧
    r.word.extractLsb' 20 12 = BitVec.ofNat 12 ((r.mean + 1) / 2) := by
  unfold CircuitReport.word
  simp (disch := omega) only [extract_above, extract_below, extract_whole, and_self]

/-- R217: a circuit is refused exactly for its learn state, m, attribution or front rank. -/
theorem ofWord_none (w : BitVec 32) (learn : BitVec 2) : CircuitReport.ofWord w learn = none ↔
    learn = 3 ∨ 8 < (w.extractLsb' 10 4).toNat ∨ 4 < (w.extractLsb' 14 3).toNat ∨ 6 < (w.extractLsb' 17 3).toNat := by
  rw [← learnState_none]
  unfold CircuitReport.ofWord
  split
  · next bad => simp [bad]
  · next good =>
    simp only [good, ite_eq_left_iff, reduceCtorEq, imp_false, not_not, Bool.or_eq_true, decide_eq_true_eq, false_or]
    omega

/-- R216, R217: a circuit whose word carries it in full: m and the mean fit their fields, the mean in its 2 mA units,
the confirmed kind has a code of the word, and there is a front rank, of 0 to 6, exactly with COUPLING. -/
def CircuitReport.InRange (r : CircuitReport) : Prop :=
  r.m ≤ 8 ∧ r.mean % 2 = 0 ∧ r.mean ≤ 8190 ∧ (∀ k, r.confirmed = some k → k.code ≤ 7) ∧
    (r.attribution = some .coupling → ∃ x, r.front = some x ∧ x ≤ 6) ∧
    (r.attribution ≠ some .coupling → r.front = none)

/-- R216: its front rank is the one that the word shows, which counts only with COUPLING. -/
theorem CircuitReport.InRange.front_read {r : CircuitReport} (h : r.InRange) : r.front.getD 0 ≤ 6 ∧
    (if r.attribution = some .coupling then some (r.front.getD 0) else none) = r.front := by
  obtain ⟨-, -, -, -, coupling, other⟩ := h
  by_cases coupled : r.attribution = some .coupling
  · obtain ⟨x, front, le⟩ := coupling coupled
    rw [if_pos coupled, front]
    exact ⟨le, rfl⟩
  · rw [if_neg coupled, other coupled]
    exact ⟨by decide, rfl⟩

/-- R216: a circuit in range is read back from its word and its learn bits. -/
theorem ofWord_word {r : CircuitReport} (h : r.InRange) :
    CircuitReport.ofWord r.word (BitVec.ofNat 2 r.learn.code) = some r := by
  obtain ⟨frontLe, frontRead⟩ := h.front_read
  obtain ⟨mLe, even, meanLe, carried, -, -⟩ := h
  obtain ⟨fn, kind, energized, judged, confirmed, m, attribution, front, mean⟩ := r.word_fields
  have attributionLe := attributionCode_le r.attribution
  have meanRead : 2 * ((r.mean + 1) / 2) = r.mean := by omega
  unfold CircuitReport.ofWord
  rw [learnState_code, fn, kind, getLsbD_of_extract energized, getLsbD_of_extract judged, confirmed, m, attribution,
    front, mean, lampFn_code, loadKind_code, faultKind_code carried, attribution_code]
  simp (disch := omega) only [BitVec.toNat_ofNat, Nat.mod_eq_of_lt, frontRead, meanRead]
  exact if_neg (by simp only [Bool.or_eq_true, decide_eq_true_eq]; omega)

/-- R216: where the fields of a STATUS lie. -/
theorem report_fields (r : Report) : r.encode.extractLsb' 0 5 = r.causes.toBits ∧
    r.encode.extractLsb' 7 1 = BitVec.ofBool r.echoed.isNone ∧ r.encode.extractLsb' 8 8 = r.echoed.getD 0 ∧
    (∀ c : Circ, r.encode.extractLsb' (16 + 2 * c.val) 2 = BitVec.ofNat 2 r.circuits[c].learn.code) ∧
    ∀ c : Circ, r.encode.extractLsb' (32 + 32 * c.val) 32 = r.circuits[c].word := by
  unfold Report.encode
  refine ⟨?_, ?_, ?_, fun c => ?_, fun c => ?_⟩
  · simp (disch := omega) only [extract_below, extract_whole]
  · simp (disch := omega) only [extract_above, extract_below, extract_whole]
  · simp (disch := omega) only [extract_above, extract_below, extract_whole]
  · have learn := twoBits_field (fun c => BitVec.ofNat 2 r.circuits[c].learn.code) c
    have place : 16 + 2 * c.val - 5 - 2 - 1 - 8 = 2 * c.val := by omega
    simp (disch := omega) only [extract_above, extract_below, learnBits_eq, place, learn]
  · fin_cases c <;> simp (disch := omega) only [extract_above, extract_below, extract_whole] <;> rfl

/-- R216: a STATUS whose circuits are in range is read back. -/
theorem report_decode_encode (r : Report) (h : ∀ c : Circ, r.circuits[c].InRange) :
    Report.decode r.encode = some r := by
  obtain ⟨causes, noEcho, echo, learn, word⟩ := report_fields r
  have read := eightM_some (reportCircuit r.encode) (fun c => r.circuits[c]) fun c => by
    rw [reportCircuit, learn, word, ofWord_word (h c)]
  have echoed : (if r.echoed.isNone then none else some (r.echoed.getD 0)) = r.echoed := by cases r.echoed <;> rfl
  unfold Report.decode
  rw [read, eight_self, causes, causes_bits, getLsbD_of_extract noEcho, echo, echoed]
  rfl

/-- R217: a STATUS is refused exactly for a circuit whose word or learn bits are. -/
theorem report_decode_none (p : BitVec 288) : Report.decode p = none ↔ ∃ c : Circ,
    let w := p.extractLsb' (32 + 32 * c.val) 32
    p.extractLsb' (16 + 2 * c.val) 2 = 3 ∨ 8 < (w.extractLsb' 10 4).toNat ∨ 4 < (w.extractLsb' 14 3).toNat ∨
      6 < (w.extractLsb' 17 3).toNat := by
  rw [Report.decode, Option.map_eq_none_iff, eightM_none]
  exact exists_congr fun c => ofWord_none _ _

/-! ## QUERY -/

/-- R216: where the fields of a QUERY lie. -/
theorem query_fields (tag : BitVec 4) (rank : Rank) (c : Circ) :
    (queryPayload tag rank c).extractLsb' 0 8 = BitVec.ofNat 8 tag.toNat ∧
    (queryPayload tag rank c).extractLsb' 8 8 = BitVec.ofNat 8 rank.val ∧
    (queryPayload tag rank c).extractLsb' 16 8 = BitVec.ofNat 8 c.val := by
  unfold queryPayload
  simp (disch := omega) only [extract_above, extract_below, extract_whole, and_self]

/-- R216: every QUERY is read back. -/
theorem query_decode_encode (tag : BitVec 4) (rank : Rank) (c : Circ) :
    queryDecode (queryPayload tag rank c) = some (tag, BitVec.ofNat 8 rank.val, c) := by
  obtain ⟨tagField, rankField, circuit⟩ := query_fields tag rank c
  have tagLt := tag.isLt
  unfold queryDecode
  simp (disch := omega) only [tagField, rankField, circuit, BitVec.toNat_ofNat, Nat.mod_eq_of_lt]
  rw [if_neg (by omega), dif_pos c.isLt, BitVec.ofNat_toNat, BitVec.setWidth_eq]

/-- R217: a QUERY is refused exactly for its tag or its circuit. -/
theorem query_decode_none (p : BitVec 24) : queryDecode p = none ↔
    15 < (p.extractLsb' 0 8).toNat ∨ 7 < (p.extractLsb' 16 8).toNat := by
  unfold queryDecode
  split
  · next tag => exact iff_of_true rfl (.inl tag)
  · next tag =>
    split
    · next circuit => exact iff_of_false nofun (by omega)
    · next circuit => exact iff_of_true rfl (.inr (by omega))

/-! ## READING -/

/-- R216: where the fields of a READING lie. -/
theorem reading_fields (tag : BitVec 4) (c : Circ) (d : ReadingData) :
    (readingPayload tag c d).extractLsb' 0 8 = BitVec.ofNat 8 tag.toNat ∧
    (readingPayload tag c d).extractLsb' 8 8 = BitVec.ofNat 8 c.val ∧
    (readingPayload tag c d).extractLsb' 16 16 = BitVec.ofNat 16 d.vm ∧
    (readingPayload tag c d).extractLsb' 32 16 = BitVec.ofNat 16 d.im ∧
    (readingPayload tag c d).extractLsb' 48 16 = BitVec.ofNat 16 d.inorm ∧
    (readingPayload tag c d).extractLsb' 64 16 = BitVec.ofNat 16 d.r ∧
    (readingPayload tag c d).extractLsb' 80 8 = BitVec.ofNat 8 d.m ∧
    (readingPayload tag c d).extractLsb' 88 8 = BitVec.ofNat 8 d.n ∧
    (readingPayload tag c d).extractLsb' 96 8 = BitVec.ofNat 8 d.learn.code := by
  unfold readingPayload
  simp (disch := omega) only [extract_above, extract_below, extract_whole, and_self]

/-- R216: the learn state is read from the two low bits of its byte. -/
theorem reading_learnBits (p : BitVec 104) :
    p.extractLsb' 96 2 = BitVec.ofNat 2 (p.extractLsb' 96 8).toNat := by
  apply BitVec.eq_of_toNat_eq
  rw [BitVec.toNat_ofNat, BitVec.extractLsb'_toNat, BitVec.extractLsb'_toNat]
  omega

/-- R215: a learn state is always in range (R217). -/
theorem learnState_code_le (l : LearnState) : l.code ≤ 2 := by cases l <;> decide

/-- R216: a READING in range is read back. -/
theorem reading_decode_encode (tag : BitVec 4) (c : Circ) (d : ReadingData) (vm : d.vm < 65536) (im : d.im < 65536)
    (inorm : d.inorm < 65536) (r : d.r < 65536) (m : d.m ≤ 8) (n : d.n ≤ 8) :
    readingDecode (readingPayload tag c d) = some (tag, c, d) := by
  obtain ⟨tagField, circuit, vmField, imField, inormField, rField, mField, nField, learn⟩ := reading_fields tag c d
  have tagLt := tag.isLt
  have learnLe := learnState_code_le d.learn
  unfold readingDecode
  simp (disch := omega) only [tagField, circuit, vmField, imField, inormField, rField, mField, nField,
    reading_learnBits, learn, BitVec.toNat_ofNat, Nat.mod_eq_of_lt, learnState_code]
  have inRange : ¬ (decide (15 < tag.toNat) || decide (8 < d.m) || decide (8 < d.n)) = true := by
    simp only [Bool.or_eq_true, decide_eq_true_eq]
    omega
  rw [if_neg inRange, dif_pos c.isLt, if_neg (by omega), BitVec.ofNat_toNat, BitVec.setWidth_eq]

/-- R217: a READING is refused exactly for its tag, circuit, m, n or learn state. -/
theorem reading_decode_none (p : BitVec 104) : readingDecode p = none ↔
    15 < (p.extractLsb' 0 8).toNat ∨ 7 < (p.extractLsb' 8 8).toNat ∨ 8 < (p.extractLsb' 80 8).toNat ∨
      8 < (p.extractLsb' 88 8).toNat ∨ 2 < (p.extractLsb' 96 8).toNat := by
  have learnRead (small : ¬ 2 < (p.extractLsb' 96 8).toNat) : LearnState.ofCode (p.extractLsb' 96 2) ≠ none := by
    rw [reading_learnBits, ne_eq, learnState_none, BitVec.toNat_eq, BitVec.toNat_ofNat]
    change ¬ (p.extractLsb' 96 8).toNat % 4 = 3
    omega
  unfold readingDecode
  split
  · next bad =>
    simp only [Bool.or_eq_true, decide_eq_true_eq] at bad
    exact iff_of_true rfl (by omega)
  · next tagMN =>
    simp only [Bool.or_eq_true, decide_eq_true_eq] at tagMN
    split
    · next circuit =>
      split
      · next learn => exact iff_of_true rfl (by omega)
      · next learn =>
        split
        · next bad => exact absurd bad (learnRead learn)
        · exact iff_of_false nofun (by omega)
    · next circuit => exact iff_of_true rfl (by omega)

/-! ## The obligation -/

/-- Settles O6: each payload by its fields (`command_fields`, `report_fields`, `query_fields`, `reading_fields`), and
each range test by the branches of its decoder, those of the eight circuits by `eightM_none`. -/
theorem payloadsReadBack : Obligations.PayloadsReadBack :=
  ⟨command_decode_encode, report_decode_encode, query_decode_encode, reading_decode_encode, command_decode_none,
    report_decode_none, query_decode_none, reading_decode_none⟩

end Sys2Proof.Machine
end
